-- ==== Sys2Proof/Word.lean ====
section
/-! DEFINITION. The data an instruction record is made of: bytes, identifiers, variable keys and operands. -/

namespace Sys2Proof

/-- A byte, 0..255: the contents of A, X, Y and of one stack element (00_scope.md R9). -/
abbrev Byte := BitVec 8

/-- The text of an identifier, one character a list element; `Ident.wf` (WellFormed.lean) says which texts are
identifiers (20_memory.md R201). -/
abbrev Ident := List Char

/-- A Vars key (20_memory.md R201). Two keys are the same slot exactly when they are equal as data (R202). -/
inductive Key where
  /-- `Num(n)`: a bare integer. -/
  | num (n : Int)
  /-- `Name(id)`: a plain identifier. -/
  | name (id : Ident)
  /-- `NameOff(id, off)`: an identifier with a signed offset, which is not 0 in a well-formed key. -/
  | nameOff (id : Ident) (off : Int)
  deriving DecidableEq, Repr

/-- The operand of a record: none, or one of "integer constant, variable key, program index"
(30_encoding.md R300, R305). -/
inductive RawOperand where
  | none
  | imm (v : Int)
  | key (k : Key)
  | index (t : Nat)
  deriving DecidableEq, Repr

end Sys2Proof
end

