-- ==== Sys2Proof/Config.lean ====
section
/-! DEFINITION. The implementation parameters of 00_scope.md R9. -/

namespace Sys2Proof

/-- The two OPEN parameters of R9, the names of the reserved variables. The spec lets a model leave one unset
(60_exceptions.md R710). A statement over every state holds for every choice of them. -/
structure Config where
  /-- `BRANCH_TYPE_KEY`. -/
  branchTypeKey : Option Key
  /-- `BRANCH_TAKEN_KEY`. -/
  branchTakenKey : Option Key
  deriving DecidableEq, Repr

/-- Neither reserved variable is named. -/
def Config.unset : Config := ⟨none, none⟩

/-- The default of `TICK_BUDGET` (R9, R10). -/
def defaultTickBudget : Nat := 1024

/-- The greatest number of records of an admitted Program (R9; 30_encoding.md R307). -/
def maxProgramLength : Nat := 65535

end Sys2Proof
end

