-- ==== Sys2Proof/Syntax.lean ====
section
/-! DEFINITION. The instructions: one constructor for each of the 92 legal (mnemonic, mode) pairs
(30_encoding.md R303, R312, R314), one for each row of spec/opcode_table.json. -/

namespace Sys2Proof

/-- An instruction: a legal pair with its resolved operand. A constructor is the mnemonic, followed by the mode where the
mnemonic has more than one. `v` is an exact integer constant (F-IMM), `k` a Vars key (F-VAR), `t` a program index
(F-REL) of 30_encoding.md R305. -/
inductive Instr where
  -- Arithmetic (40_arithmetic.md)
  | adcImm (v : Int)
  | adcZp (k : Key)
  | adcAbs (k : Key)
  | sbcImm (v : Int)
  | sbcZp (k : Key)
  | sbcAbs (k : Key)
  -- Logical operations (41_logical.md)
  | andImm (v : Int)
  | andZp (k : Key)
  | andAbs (k : Key)
  | oraImm (v : Int)
  | oraZp (k : Key)
  | oraAbs (k : Key)
  | eorImm (v : Int)
  | eorZp (k : Key)
  | eorAbs (k : Key)
  | bitZp (k : Key)
  | bitAbs (k : Key)
  -- Shifts and rotates (42_shift_rotate.md)
  | aslAcc
  | aslZp (k : Key)
  | aslAbs (k : Key)
  | lsrAcc
  | lsrZp (k : Key)
  | lsrAbs (k : Key)
  | rolAcc
  | rolZp (k : Key)
  | rolAbs (k : Key)
  | rorAcc
  | rorZp (k : Key)
  | rorAbs (k : Key)
  -- Compares (43_compare.md)
  | cmpImm (v : Int)
  | cmpZp (k : Key)
  | cmpAbs (k : Key)
  | cpxImm (v : Int)
  | cpxZp (k : Key)
  | cpxAbs (k : Key)
  | cpyImm (v : Int)
  | cpyZp (k : Key)
  | cpyAbs (k : Key)
  -- Increment and decrement (44_inc_dec.md)
  | incZp (k : Key)
  | incAbs (k : Key)
  | decZp (k : Key)
  | decAbs (k : Key)
  | inx
  | iny
  | dex
  | dey
  -- Control transfer (45_control.md)
  | bcc (t : Nat)
  | bcs (t : Nat)
  | beq (t : Nat)
  | bne (t : Nat)
  | bmi (t : Nat)
  | bpl (t : Nat)
  | bvc (t : Nat)
  | bvs (t : Nat)
  | jmp (t : Nat)
  | jsr (t : Nat)
  | rts
  | rti
  | branch (t : Nat)
  -- Stack and register transfers (46_stack_transfer.md)
  | pha
  | pla
  | php
  | plp
  | tax
  | tay
  | txa
  | tya
  | tsx
  | txs
  -- Flag instructions and no-ops (47_flags_nop.md)
  | clc
  | sec
  | clv
  | cld
  | cli
  | sei
  | sed
  | nop
  -- Loads and stores (48_load_store.md)
  | ldaImm (v : Int)
  | ldaZp (k : Key)
  | ldaAbs (k : Key)
  | ldxImm (v : Int)
  | ldxZp (k : Key)
  | ldxAbs (k : Key)
  | ldyImm (v : Int)
  | ldyZp (k : Key)
  | ldyAbs (k : Key)
  | staZp (k : Key)
  | staAbs (k : Key)
  | stxZp (k : Key)
  | stxAbs (k : Key)
  | styZp (k : Key)
  | styAbs (k : Key)
  deriving DecidableEq, Repr

/-- The operand of an instruction, in the format of its mode (30_encoding.md R305). -/
def Instr.operand : Instr → RawOperand
  | .aslAcc | .lsrAcc | .rolAcc | .rorAcc | .inx | .iny | .dex | .dey | .rts | .rti | .pha | .pla | .php | .plp
  | .tax | .tay | .txa | .tya | .tsx | .txs | .clc | .sec | .clv | .cld | .cli | .sei | .sed | .nop => .none
  | .adcImm v | .sbcImm v | .andImm v | .oraImm v | .eorImm v | .cmpImm v | .cpxImm v | .cpyImm v | .ldaImm v
  | .ldxImm v | .ldyImm v => .imm v
  | .adcZp k | .adcAbs k | .sbcZp k | .sbcAbs k | .andZp k | .andAbs k | .oraZp k | .oraAbs k | .eorZp k | .eorAbs k
  | .bitZp k | .bitAbs k | .aslZp k | .aslAbs k | .lsrZp k | .lsrAbs k | .rolZp k | .rolAbs k | .rorZp k | .rorAbs k
  | .cmpZp k | .cmpAbs k | .cpxZp k | .cpxAbs k | .cpyZp k | .cpyAbs k | .incZp k | .incAbs k | .decZp k | .decAbs k
  | .ldaZp k | .ldaAbs k | .ldxZp k | .ldxAbs k | .ldyZp k | .ldyAbs k | .staZp k | .staAbs k | .stxZp k | .stxAbs k
  | .styZp k | .styAbs k => .key k
  | .bcc t | .bcs t | .beq t | .bne t | .bmi t | .bpl t | .bvc t | .bvs t | .jmp t | .jsr t | .branch t => .index t

end Sys2Proof
end

