-- ==== Sys2Proof/WellFormed.lean ====
section
/-! DEFINITION. Well-formedness of identifiers, keys, operands and instructions (20_memory.md R201; 30_encoding.md R305,
R307). -/

namespace Sys2Proof

/-- A first character of an identifier, `[@_a-zA-Z]` (20_memory.md R201). -/
def identStart (c : Char) : Bool := c == '@' || c == '_' || c.isAlpha

/-- A later character of an identifier, `[@_a-zA-Z0-9]` (20_memory.md R201). -/
def identRest (c : Char) : Bool := identStart c || c.isDigit

/-- A text that matches `[@_a-zA-Z][@_a-zA-Z0-9]*`. -/
def Ident.wf : Ident → Bool
  | [] => false
  | c :: cs => identStart c && cs.all identRest

/-- A key of 20_memory.md R201: its identifier is one, and an offset is not 0. -/
def Key.wf : Key → Bool
  | .num _ => true
  | .name id => Ident.wf id
  | .nameOff id off => Ident.wf id && off != 0

/-- An operand that names a key names a well-formed one. Any integer is an immediate (30_encoding.md R308). -/
def RawOperand.wf : RawOperand → Bool
  | .none => true
  | .imm _ => true
  | .key k => k.wf
  | .index _ => true

/-- A program index fits a Program of `n` records: 0..n (30_encoding.md R307 point 4, R310). -/
def RawOperand.fits (n : Nat) : RawOperand → Bool
  | .none => true
  | .imm _ => true
  | .key _ => true
  | .index t => decide (t ≤ n)

/-- A well-formed instruction, whatever Program it stands in. -/
def Instr.wf (i : Instr) : Bool := i.operand.wf

/-- A well-formed instruction of a Program of `n` records (30_encoding.md R307). -/
def Instr.wfIn (n : Nat) (i : Instr) : Bool := i.wf && i.operand.fits n

end Sys2Proof
end

