-- ==== Sys2Proof/Decode.lean ====
section
/-! DEFINITION. Records, the decoder and the encoder (30_encoding.md R300 to R319). -/

namespace Sys2Proof

/-- The 56 mnemonics (00_scope.md R2). -/
inductive Mnemonic where
  | adc | sbc | and | ora | eor | bit | asl | lsr | rol | ror | cmp | cpx | cpy | inc | dec | inx | iny | dex | dey
  | bcc | bcs | beq | bne | bmi | bpl | bvc | bvs | jmp | jsr | rts | rti | branch | pha | pla | php | plp | tax
  | tay | txa | tya | tsx | txs | clc | sec | clv | cld | cli | sei | sed | nop | lda | ldx | ldy | sta | stx | sty
  deriving DecidableEq, Repr

/-- The addressing-mode tags a record can carry (30_encoding.md R302). -/
inductive Mode where
  /-- Implicit: no operand. -/
  | imp
  /-- Accumulator: reads and writes A. -/
  | acc
  /-- Immediate: an integer constant. -/
  | imm
  /-- ZeroPage: a Vars key. -/
  | zp
  /-- Absolute: a Vars key; the same behaviour as ZeroPage. -/
  | abs
  /-- Relative: a program index. -/
  | rel
  deriving DecidableEq, Repr

/-- The mnemonic of an instruction. -/
def Instr.mnemonic : Instr → Mnemonic
  | .adcImm _ | .adcZp _ | .adcAbs _ => .adc
  | .sbcImm _ | .sbcZp _ | .sbcAbs _ => .sbc
  | .andImm _ | .andZp _ | .andAbs _ => .and
  | .oraImm _ | .oraZp _ | .oraAbs _ => .ora
  | .eorImm _ | .eorZp _ | .eorAbs _ => .eor
  | .bitZp _ | .bitAbs _ => .bit
  | .aslAcc | .aslZp _ | .aslAbs _ => .asl
  | .lsrAcc | .lsrZp _ | .lsrAbs _ => .lsr
  | .rolAcc | .rolZp _ | .rolAbs _ => .rol
  | .rorAcc | .rorZp _ | .rorAbs _ => .ror
  | .cmpImm _ | .cmpZp _ | .cmpAbs _ => .cmp
  | .cpxImm _ | .cpxZp _ | .cpxAbs _ => .cpx
  | .cpyImm _ | .cpyZp _ | .cpyAbs _ => .cpy
  | .incZp _ | .incAbs _ => .inc
  | .decZp _ | .decAbs _ => .dec
  | .inx => .inx
  | .iny => .iny
  | .dex => .dex
  | .dey => .dey
  | .bcc _ => .bcc
  | .bcs _ => .bcs
  | .beq _ => .beq
  | .bne _ => .bne
  | .bmi _ => .bmi
  | .bpl _ => .bpl
  | .bvc _ => .bvc
  | .bvs _ => .bvs
  | .jmp _ => .jmp
  | .jsr _ => .jsr
  | .rts => .rts
  | .rti => .rti
  | .branch _ => .branch
  | .pha => .pha
  | .pla => .pla
  | .php => .php
  | .plp => .plp
  | .tax => .tax
  | .tay => .tay
  | .txa => .txa
  | .tya => .tya
  | .tsx => .tsx
  | .txs => .txs
  | .clc => .clc
  | .sec => .sec
  | .clv => .clv
  | .cld => .cld
  | .cli => .cli
  | .sei => .sei
  | .sed => .sed
  | .nop => .nop
  | .ldaImm _ | .ldaZp _ | .ldaAbs _ => .lda
  | .ldxImm _ | .ldxZp _ | .ldxAbs _ => .ldx
  | .ldyImm _ | .ldyZp _ | .ldyAbs _ => .ldy
  | .staZp _ | .staAbs _ => .sta
  | .stxZp _ | .stxAbs _ => .stx
  | .styZp _ | .styAbs _ => .sty

/-- The addressing mode of an instruction. -/
def Instr.mode : Instr → Mode
  | .inx | .iny | .dex | .dey | .rts | .rti | .pha | .pla | .php | .plp | .tax | .tay | .txa | .tya | .tsx | .txs
  | .clc | .sec | .clv | .cld | .cli | .sei | .sed | .nop => .imp
  | .aslAcc | .lsrAcc | .rolAcc | .rorAcc => .acc
  | .adcImm _ | .sbcImm _ | .andImm _ | .oraImm _ | .eorImm _ | .cmpImm _ | .cpxImm _ | .cpyImm _ | .ldaImm _
  | .ldxImm _ | .ldyImm _ => .imm
  | .adcZp _ | .sbcZp _ | .andZp _ | .oraZp _ | .eorZp _ | .bitZp _ | .aslZp _ | .lsrZp _ | .rolZp _ | .rorZp _
  | .cmpZp _ | .cpxZp _ | .cpyZp _ | .incZp _ | .decZp _ | .ldaZp _ | .ldxZp _ | .ldyZp _ | .staZp _ | .stxZp _
  | .styZp _ => .zp
  | .adcAbs _ | .sbcAbs _ | .andAbs _ | .oraAbs _ | .eorAbs _ | .bitAbs _ | .aslAbs _ | .lsrAbs _ | .rolAbs _
  | .rorAbs _ | .cmpAbs _ | .cpxAbs _ | .cpyAbs _ | .incAbs _ | .decAbs _ | .ldaAbs _ | .ldxAbs _ | .ldyAbs _
  | .staAbs _ | .stxAbs _ | .styAbs _ => .abs
  | .bcc _ | .bcs _ | .beq _ | .bne _ | .bmi _ | .bpl _ | .bvc _ | .bvs _ | .jmp _ | .jsr _ | .branch _ => .rel

/-- The legal-mode matrix, row by row as 30_encoding.md R312 gives it. -/
def legalModes : Mnemonic → List Mode
  | .adc | .and | .cmp | .eor | .lda | .ora | .sbc => [.imm, .zp, .abs]
  | .cpx | .cpy | .ldx | .ldy => [.imm, .zp, .abs]
  | .asl | .lsr | .rol | .ror => [.acc, .zp, .abs]
  | .bit => [.zp, .abs]
  | .inc | .dec => [.zp, .abs]
  | .sta | .stx | .sty => [.zp, .abs]
  | .bcc | .bcs | .beq | .bne | .bmi | .bpl | .bvc | .bvs => [.rel]
  | .jmp | .jsr | .branch => [.rel]
  | .clc | .cld | .cli | .clv | .sec | .sed | .sei | .nop => [.imp]
  | .dex | .dey | .inx | .iny => [.imp]
  | .pha | .php | .pla | .plp => [.imp]
  | .rti | .rts => [.imp]
  | .tax | .tay | .tsx | .txa | .txs | .tya => [.imp]

/-- Whether a (mnemonic, mode) pair is in the matrix of R312. -/
def legalPair (m : Mnemonic) (md : Mode) : Bool := (legalModes m).contains md

/-- What identifies an instruction in a record: the tag of its (mnemonic, mode) pair and the operand
(30_encoding.md R305). The tag is a name, not a memory image (R304). -/
structure RawInstr where
  tag : Byte
  operand : RawOperand
  deriving DecidableEq, Repr

/-- An instruction record (30_encoding.md R300). `line` is the source line, which has no effect on execution (R301). -/
structure Record where
  line : Nat
  raw : RawInstr
  deriving DecidableEq, Repr

/-- A Program: the records at indices 0..N-1 (30_encoding.md R300). -/
abbrev Program := List Record

/-- What a tag leaves open: the operand its format takes, and the instruction once the operand is given (R305, R306). -/
inductive Shape where
  | plain (i : Instr)
  | imm (mk : Int → Instr)
  | var (mk : Key → Instr)
  | rel (mk : Nat → Instr)

/-- The opcode map in tag order (30_encoding.md R314). Every other tag is illegal (R315). -/
def decodeTag (tag : Byte) : Option Shape :=
  match tag.toNat with
  | 0x02 => some (.rel .branch)
  | 0x05 => some (.var .oraZp)
  | 0x06 => some (.var .aslZp)
  | 0x08 => some (.plain .php)
  | 0x09 => some (.imm .oraImm)
  | 0x0A => some (.plain .aslAcc)
  | 0x0D => some (.var .oraAbs)
  | 0x0E => some (.var .aslAbs)
  | 0x10 => some (.rel .bpl)
  | 0x18 => some (.plain .clc)
  | 0x20 => some (.rel .jsr)
  | 0x24 => some (.var .bitZp)
  | 0x25 => some (.var .andZp)
  | 0x26 => some (.var .rolZp)
  | 0x28 => some (.plain .plp)
  | 0x29 => some (.imm .andImm)
  | 0x2A => some (.plain .rolAcc)
  | 0x2C => some (.var .bitAbs)
  | 0x2D => some (.var .andAbs)
  | 0x2E => some (.var .rolAbs)
  | 0x30 => some (.rel .bmi)
  | 0x38 => some (.plain .sec)
  | 0x40 => some (.plain .rti)
  | 0x45 => some (.var .eorZp)
  | 0x46 => some (.var .lsrZp)
  | 0x48 => some (.plain .pha)
  | 0x49 => some (.imm .eorImm)
  | 0x4A => some (.plain .lsrAcc)
  | 0x4C => some (.rel .jmp)
  | 0x4D => some (.var .eorAbs)
  | 0x4E => some (.var .lsrAbs)
  | 0x50 => some (.rel .bvc)
  | 0x58 => some (.plain .cli)
  | 0x60 => some (.plain .rts)
  | 0x65 => some (.var .adcZp)
  | 0x66 => some (.var .rorZp)
  | 0x68 => some (.plain .pla)
  | 0x69 => some (.imm .adcImm)
  | 0x6A => some (.plain .rorAcc)
  | 0x6D => some (.var .adcAbs)
  | 0x6E => some (.var .rorAbs)
  | 0x70 => some (.rel .bvs)
  | 0x78 => some (.plain .sei)
  | 0x84 => some (.var .styZp)
  | 0x85 => some (.var .staZp)
  | 0x86 => some (.var .stxZp)
  | 0x88 => some (.plain .dey)
  | 0x8A => some (.plain .txa)
  | 0x8C => some (.var .styAbs)
  | 0x8D => some (.var .staAbs)
  | 0x8E => some (.var .stxAbs)
  | 0x90 => some (.rel .bcc)
  | 0x98 => some (.plain .tya)
  | 0x9A => some (.plain .txs)
  | 0xA0 => some (.imm .ldyImm)
  | 0xA2 => some (.imm .ldxImm)
  | 0xA4 => some (.var .ldyZp)
  | 0xA5 => some (.var .ldaZp)
  | 0xA6 => some (.var .ldxZp)
  | 0xA8 => some (.plain .tay)
  | 0xA9 => some (.imm .ldaImm)
  | 0xAA => some (.plain .tax)
  | 0xAC => some (.var .ldyAbs)
  | 0xAD => some (.var .ldaAbs)
  | 0xAE => some (.var .ldxAbs)
  | 0xB0 => some (.rel .bcs)
  | 0xB8 => some (.plain .clv)
  | 0xBA => some (.plain .tsx)
  | 0xC0 => some (.imm .cpyImm)
  | 0xC4 => some (.var .cpyZp)
  | 0xC5 => some (.var .cmpZp)
  | 0xC6 => some (.var .decZp)
  | 0xC8 => some (.plain .iny)
  | 0xC9 => some (.imm .cmpImm)
  | 0xCA => some (.plain .dex)
  | 0xCC => some (.var .cpyAbs)
  | 0xCD => some (.var .cmpAbs)
  | 0xCE => some (.var .decAbs)
  | 0xD0 => some (.rel .bne)
  | 0xD8 => some (.plain .cld)
  | 0xE0 => some (.imm .cpxImm)
  | 0xE4 => some (.var .cpxZp)
  | 0xE5 => some (.var .sbcZp)
  | 0xE6 => some (.var .incZp)
  | 0xE8 => some (.plain .inx)
  | 0xE9 => some (.imm .sbcImm)
  | 0xEA => some (.plain .nop)
  | 0xEC => some (.var .cpxAbs)
  | 0xED => some (.var .sbcAbs)
  | 0xEE => some (.var .incAbs)
  | 0xF0 => some (.rel .beq)
  | 0xF8 => some (.plain .sed)
  | _ => none

/-- Why a record spells no instruction (60_exceptions.md R712). -/
inductive DecodeError where
  /-- The tag is one of the 164 illegal tags (30_encoding.md R315). -/
  | illegalTag (tag : Byte)
  /-- The operand is not of the kind the tag's format requires (30_encoding.md R305). -/
  | wrongOperand (tag : Byte)
  deriving DecidableEq, Repr

/-- Gives a shape its operand, if the operand is of the kind the shape takes. A key that is not well-formed (an offset of
0, a text that is no identifier) is no operand of F-VAR (30_encoding.md R305; DEDUCED, entry 9). -/
def Shape.apply : Shape → RawOperand → Option Instr
  | .plain i, .none => some i
  | .imm mk, .imm v => some (mk v)
  | .var mk, .key k => if k.wf then some (mk k) else none
  | .rel mk, .index t => some (mk t)
  | _, _ => none

/-- The decoder: total on every record, and rejecting by name (30_encoding.md R311, R315). -/
def decode (w : RawInstr) : Except DecodeError Instr :=
  match decodeTag w.tag with
  | none => .error (.illegalTag w.tag)
  | some sh =>
    match sh.apply w.operand with
    | some i => .ok i
    | none => .error (.wrongOperand w.tag)

/-- The instruction a record spells, if any. -/
def Record.instr? (r : Record) : Option Instr := (decode r.raw).toOption

/-- The tag of an instruction, family by family (the "Encoding" line of each rule of files 40 to 48). -/
def encodeTag : Instr → Byte
  | .adcImm _ => 0x69#8 | .adcZp _ => 0x65#8 | .adcAbs _ => 0x6D#8 | .sbcImm _ => 0xE9#8 | .sbcZp _ => 0xE5#8
  | .sbcAbs _ => 0xED#8 | .andImm _ => 0x29#8 | .andZp _ => 0x25#8 | .andAbs _ => 0x2D#8 | .oraImm _ => 0x09#8
  | .oraZp _ => 0x05#8 | .oraAbs _ => 0x0D#8 | .eorImm _ => 0x49#8 | .eorZp _ => 0x45#8 | .eorAbs _ => 0x4D#8
  | .bitZp _ => 0x24#8 | .bitAbs _ => 0x2C#8 | .aslAcc => 0x0A#8 | .aslZp _ => 0x06#8 | .aslAbs _ => 0x0E#8
  | .lsrAcc => 0x4A#8 | .lsrZp _ => 0x46#8 | .lsrAbs _ => 0x4E#8 | .rolAcc => 0x2A#8 | .rolZp _ => 0x26#8
  | .rolAbs _ => 0x2E#8 | .rorAcc => 0x6A#8 | .rorZp _ => 0x66#8 | .rorAbs _ => 0x6E#8 | .cmpImm _ => 0xC9#8
  | .cmpZp _ => 0xC5#8 | .cmpAbs _ => 0xCD#8 | .cpxImm _ => 0xE0#8 | .cpxZp _ => 0xE4#8 | .cpxAbs _ => 0xEC#8
  | .cpyImm _ => 0xC0#8 | .cpyZp _ => 0xC4#8 | .cpyAbs _ => 0xCC#8 | .incZp _ => 0xE6#8 | .incAbs _ => 0xEE#8
  | .decZp _ => 0xC6#8 | .decAbs _ => 0xCE#8 | .inx => 0xE8#8 | .iny => 0xC8#8 | .dex => 0xCA#8 | .dey => 0x88#8
  | .bcc _ => 0x90#8 | .bcs _ => 0xB0#8 | .beq _ => 0xF0#8 | .bne _ => 0xD0#8 | .bmi _ => 0x30#8 | .bpl _ => 0x10#8
  | .bvc _ => 0x50#8 | .bvs _ => 0x70#8 | .jmp _ => 0x4C#8 | .jsr _ => 0x20#8 | .rts => 0x60#8 | .rti => 0x40#8
  | .branch _ => 0x02#8 | .pha => 0x48#8 | .pla => 0x68#8 | .php => 0x08#8 | .plp => 0x28#8 | .tax => 0xAA#8
  | .tay => 0xA8#8 | .txa => 0x8A#8 | .tya => 0x98#8 | .tsx => 0xBA#8 | .txs => 0x9A#8 | .clc => 0x18#8
  | .sec => 0x38#8 | .clv => 0xB8#8 | .cld => 0xD8#8 | .cli => 0x58#8 | .sei => 0x78#8 | .sed => 0xF8#8
  | .nop => 0xEA#8 | .ldaImm _ => 0xA9#8 | .ldaZp _ => 0xA5#8 | .ldaAbs _ => 0xAD#8 | .ldxImm _ => 0xA2#8
  | .ldxZp _ => 0xA6#8 | .ldxAbs _ => 0xAE#8 | .ldyImm _ => 0xA0#8 | .ldyZp _ => 0xA4#8 | .ldyAbs _ => 0xAC#8
  | .staZp _ => 0x85#8 | .staAbs _ => 0x8D#8 | .stxZp _ => 0x86#8 | .stxAbs _ => 0x8E#8 | .styZp _ => 0x84#8
  | .styAbs _ => 0x8C#8

/-- The encoder: the record words of an instruction. -/
def encode (i : Instr) : RawInstr := ⟨encodeTag i, i.operand⟩

/-- A row of the opcode table: tag, mnemonic, mode. -/
abbrev OpcodeRow := Nat × Mnemonic × Mode

/-- The rows of 40_arithmetic.md in the table of 30_encoding.md R314. -/
def rowsArithmetic : List OpcodeRow :=
  [(0x69, .adc, .imm), (0x65, .adc, .zp), (0x6D, .adc, .abs), (0xE9, .sbc, .imm), (0xE5, .sbc, .zp),
  (0xED, .sbc, .abs)]

/-- The rows of 41_logical.md in the table of 30_encoding.md R314. -/
def rowsLogical : List OpcodeRow :=
  [(0x29, .and, .imm), (0x25, .and, .zp), (0x2D, .and, .abs), (0x09, .ora, .imm), (0x05, .ora, .zp),
  (0x0D, .ora, .abs), (0x49, .eor, .imm), (0x45, .eor, .zp), (0x4D, .eor, .abs), (0x24, .bit, .zp),
  (0x2C, .bit, .abs)]

/-- The rows of 42_shift_rotate.md in the table of 30_encoding.md R314. -/
def rowsShiftRotate : List OpcodeRow :=
  [(0x0A, .asl, .acc), (0x06, .asl, .zp), (0x0E, .asl, .abs), (0x4A, .lsr, .acc), (0x46, .lsr, .zp),
  (0x4E, .lsr, .abs), (0x2A, .rol, .acc), (0x26, .rol, .zp), (0x2E, .rol, .abs), (0x6A, .ror, .acc),
  (0x66, .ror, .zp), (0x6E, .ror, .abs)]

/-- The rows of 43_compare.md in the table of 30_encoding.md R314. -/
def rowsCompare : List OpcodeRow :=
  [(0xC9, .cmp, .imm), (0xC5, .cmp, .zp), (0xCD, .cmp, .abs), (0xE0, .cpx, .imm), (0xE4, .cpx, .zp),
  (0xEC, .cpx, .abs), (0xC0, .cpy, .imm), (0xC4, .cpy, .zp), (0xCC, .cpy, .abs)]

/-- The rows of 44_inc_dec.md in the table of 30_encoding.md R314. -/
def rowsIncDec : List OpcodeRow :=
  [(0xE6, .inc, .zp), (0xEE, .inc, .abs), (0xC6, .dec, .zp), (0xCE, .dec, .abs), (0xE8, .inx, .imp),
  (0xC8, .iny, .imp), (0xCA, .dex, .imp), (0x88, .dey, .imp)]

/-- The rows of 45_control.md in the table of 30_encoding.md R314. -/
def rowsControl : List OpcodeRow :=
  [(0x90, .bcc, .rel), (0xB0, .bcs, .rel), (0xF0, .beq, .rel), (0xD0, .bne, .rel), (0x30, .bmi, .rel),
  (0x10, .bpl, .rel), (0x50, .bvc, .rel), (0x70, .bvs, .rel), (0x4C, .jmp, .rel), (0x20, .jsr, .rel),
  (0x60, .rts, .imp), (0x40, .rti, .imp), (0x02, .branch, .rel)]

/-- The rows of 46_stack_transfer.md in the table of 30_encoding.md R314. -/
def rowsStackTransfer : List OpcodeRow :=
  [(0x48, .pha, .imp), (0x68, .pla, .imp), (0x08, .php, .imp), (0x28, .plp, .imp), (0xAA, .tax, .imp),
  (0xA8, .tay, .imp), (0x8A, .txa, .imp), (0x98, .tya, .imp), (0xBA, .tsx, .imp), (0x9A, .txs, .imp)]

/-- The rows of 47_flags_nop.md in the table of 30_encoding.md R314. -/
def rowsFlagsNop : List OpcodeRow :=
  [(0x18, .clc, .imp), (0x38, .sec, .imp), (0xB8, .clv, .imp), (0xD8, .cld, .imp), (0x58, .cli, .imp),
  (0x78, .sei, .imp), (0xF8, .sed, .imp), (0xEA, .nop, .imp)]

/-- The rows of 48_load_store.md in the table of 30_encoding.md R314. -/
def rowsLoadStore : List OpcodeRow :=
  [(0xA9, .lda, .imm), (0xA5, .lda, .zp), (0xAD, .lda, .abs), (0xA2, .ldx, .imm), (0xA6, .ldx, .zp),
  (0xAE, .ldx, .abs), (0xA0, .ldy, .imm), (0xA4, .ldy, .zp), (0xAC, .ldy, .abs), (0x85, .sta, .zp),
  (0x8D, .sta, .abs), (0x86, .stx, .zp), (0x8E, .stx, .abs), (0x84, .sty, .zp), (0x8C, .sty, .abs)]

/-- The table of 30_encoding.md R314: the tag of every legal pair. -/
def opcodeTable : List OpcodeRow :=
  rowsArithmetic ++ rowsLogical ++ rowsShiftRotate ++ rowsCompare ++
  rowsIncDec ++ rowsControl ++ rowsStackTransfer ++
  rowsFlagsNop ++ rowsLoadStore

/-- The tag of a (mnemonic, mode) pair, none where the pair is illegal (30_encoding.md R304, R314). -/
def tagOf (m : Mnemonic) (md : Mode) : Option Byte :=
  (opcodeTable.find? fun row => row.2.1 == m && row.2.2 == md).map fun row => BitVec.ofNat 8 row.1

/-- The operand of zeros that a tag's format takes: what a record holds when only its tag is given (entry 5). -/
def zeroOperand (tag : Byte) : RawOperand :=
  match decodeTag tag with
  | none => .none
  | some (.plain _) => .none
  | some (.imm _) => .imm 0
  | some (.var _) => .key (.num 0)
  | some (.rel _) => .index 0

/-- The record words of an opcode-table word: an 8-bit tag with an operand of zeros. A word of any other width, or one
that does not fit its width, is given an illegal tag (entry 5). -/
def tableWord (nbits w : Nat) : RawInstr :=
  let tag : Byte := if nbits = 8 ∧ w < 256 then BitVec.ofNat 8 w else 0xFF#8
  ⟨tag, zeroOperand tag⟩

/-- The instruction the decoder reads from an opcode-table word. -/
def decodeTableWord (nbits w : Nat) : Option Instr := (decode (tableWord nbits w)).toOption

/-- A record of a well-formed Program of `n` records (30_encoding.md R307, points 2 to 4). -/
def Record.wfIn (n : Nat) (r : Record) : Bool :=
  match decode r.raw with
  | .ok i => i.wfIn n
  | .error _ => false

/-- A well-formed Program (30_encoding.md R307). -/
def wellFormedProgram (p : Program) : Bool :=
  decide (p.length ≤ maxProgramLength) && p.all (Record.wfIn p.length)

end Sys2Proof
end

