-- ==== Sys2Proof/Machine/State.lean ====
section
/-! DEFINITION. The state of one CPU instance (10_state.md R100), the reasons a step can stop, and the state after reset
(70_reset_and_hazards.md R800). -/

namespace Sys2Proof.Machine

/-- The eight branch conditions (45_control.md R500; 10_state.md R117). -/
inductive Cond where
  | bcc | bcs | beq | bne | bmi | bpl | bvc | bvs
  deriving DecidableEq, Repr

/-- `BSEL`, the branch-type selector (10_state.md R117). -/
inductive Selector where
  /-- `Unset`: acts as bcc. -/
  | unset
  /-- `Cond(c)`. -/
  | cond (c : Cond)
  /-- `Invalid`: a value that names none of the eight. -/
  | invalid
  deriving DecidableEq, Repr

/-- `BTAKEN`, the branch-taken record (10_state.md R118). -/
inductive BranchTaken where
  | absent
  | taken (b : Bool)
  deriving DecidableEq, Repr

/-- The fault kinds of 60_exceptions.md R701. -/
inductive FaultKind where
  /-- Code 1, raised by the decoder (R712). -/
  | illegalInstruction
  /-- Code 2, raised by every ZP/ABS instruction (R710). -/
  | reservedKeyAccess
  /-- Code 3, raised by `branch` (R711). -/
  | invalidBranchSelector
  deriving DecidableEq, Repr

/-- What a fault records (60_exceptions.md R701): the index of the faulting record, its source line and, for
`ReservedKeyAccess`, the key. -/
structure FaultInfo where
  pcFault : Nat
  line : Nat
  key : Option Key
  deriving DecidableEq, Repr

/-- `STATUS`, the run status (10_state.md R119). -/
inductive Status where
  | ready
  | completed
  | incomplete
  | faulted (kind : FaultKind) (info : FaultInfo)
  deriving DecidableEq, Repr

/-- The four flags (10_state.md R110). `c` is the Carry, `true` for 1. -/
structure Flags where
  c : Bool
  z : Bool
  v : Bool
  n : Bool
  deriving DecidableEq, Repr

/-- The variable store `Vars` (20_memory.md R126, R200): the slots that exist, each a key and the integer it holds. The
list is kept in one canonical form, `Memory.wf` (Machine/Memory.lean). -/
abbrev Memory := List (Key × Int)

/-- The state of one CPU instance: the state of 10_state.md R100, and the read-only parameters of its run. -/
structure State where
  /-- Register A (R101). -/
  a : Byte
  /-- Register X (R101). -/
  x : Byte
  /-- Register Y (R101). -/
  y : Byte
  /-- The flags C, Z, V and N (R110). -/
  flags : Flags
  /-- The program counter, an index into the Program (R105). -/
  pc : Nat
  /-- The stack `S`: a finite sequence of bytes, its top the last element (R120). -/
  stack : List Byte
  /-- The variable store (R126). -/
  vars : Memory
  /-- `BSEL` (R117). -/
  bsel : Selector
  /-- `BTAKEN` (R118). -/
  btaken : BranchTaken
  /-- `TICKS` (R119). -/
  ticks : Nat
  /-- `STATUS` (R119). -/
  status : Status
  /-- The Program, a read-only parameter (R100; 20_memory.md R220; entry 1). -/
  program : Program
  /-- `TICK_BUDGET`, the argument of Run (70_reset_and_hazards.md R807; entry 2). -/
  budget : Nat
  /-- The OPEN parameters (00_scope.md R9; entry 3). -/
  cfg : Config
  deriving DecidableEq, Repr

/-- Why a step stops. The spec's own faults are no reason here: each is a next state whose `status` is `faulted`
(60_exceptions.md R701; entry 8). -/
inductive Fault where
  /-- Raised by `step` alone, when `STATUS` is no longer `Ready`: the run has ended, and "no further tick executes"
  (60_exceptions.md R702; 70_reset_and_hazards.md R808, R815). Safe: the machine does nothing there (entry 7). -/
  | runEnded
  deriving DecidableEq, Repr

/-- Why an instruction has no meaning. -/
inductive Refusal where
  /-- Raised by an arm of `exec` whose instruction is not modelled. No arm raises it. Safe. -/
  | notModelled (mnemonic : String)
  deriving DecidableEq, Repr

/-- The outcome of a step. -/
abbrev Outcome := Host.Outcome State Fault Refusal

/-- All flags clear (70_reset_and_hazards.md R800). -/
def Flags.clear : Flags := ⟨false, false, false, false⟩

/-- The reset state of 70_reset_and_hazards.md R800, with no Program loaded (entry 4), the default budget (R807; entry 2)
and no reserved variable named (entry 3). -/
def State.reset : State where
  a := 0
  x := 0
  y := 0
  flags := Flags.clear
  pc := 0
  stack := []
  vars := []
  bsel := .unset
  btaken := .absent
  ticks := 0
  status := .ready
  program := []
  budget := defaultTickBudget
  cfg := Config.unset

end Sys2Proof.Machine
end

