-- ==== Sys2Proof/Machine/Flags.lean ====
section
/-! DEFINITION. Folding, the flag computations and the packed flag byte (00_scope.md R13, R14, R16; 10_state.md R114,
R115; 45_control.md R500). -/

namespace Sys2Proof.Machine

/-- `fold(v) = v mod 256`, for any integer (00_scope.md R13). -/
def fold (v : Int) : Byte := BitVec.ofInt 8 v

/-- `b2i(f)` (00_scope.md R14). -/
def b2i (f : Bool) : Nat := if f then 1 else 0

/-- `SetNZ(v)`: Z is whether the byte is zero, N whether it is above 127 (00_scope.md R16). -/
def Flags.setNZ (f : Flags) (v : Byte) : Flags :=
  { f with z := decide (v = 0), n := decide (127 < v.toNat) }

/-- The flags of the add core, from the old A, the operand and the unfolded sum `r` (40_arithmetic.md R400). -/
def Flags.afterAdd (f : Flags) (aOld m : Byte) (r : Nat) : Flags :=
  let g : Flags :=
    { f with
      c := decide (255 < r)
      v := decide ((aOld.toNat ^^^ r) &&& (m.toNat ^^^ r) &&& 0x80 ≠ 0) }
  g.setNZ (fold r)

/-- The flags of the compare core: C is the unsigned comparison, Z and N describe the folded difference
(43_compare.md R460). -/
def Flags.afterCompare (f : Flags) (r m : Byte) : Flags :=
  { f with c := decide (m.toNat ≤ r.toNat) }.setNZ (fold ((r.toNat : Int) - m.toNat))

/-- The flags of `bit`: Z from `A & M`, N and V from bits 7 and 6 of the operand (41_logical.md R423). -/
def Flags.afterBit (f : Flags) (a m : Byte) : Flags :=
  { f with z := decide (a &&& m = 0), n := m.getLsbD 7, v := m.getLsbD 6 }

/-- `Pack()`: N, V, Z and C in bits 7, 6, 1 and 0, and 0 in bits 5 to 2 (10_state.md R114). -/
def Flags.pack (f : Flags) : Byte :=
  BitVec.ofNat 8 (b2i f.n * 128 + b2i f.v * 64 + b2i f.z * 2 + b2i f.c)

/-- `Unpack(b)`; bits 5 to 2 are ignored (10_state.md R115). -/
def Flags.unpack (b : Byte) : Flags :=
  ⟨b.getLsbD 0, b.getLsbD 1, b.getLsbD 6, b.getLsbD 7⟩

/-- When a branch condition holds (45_control.md R500). -/
def Cond.holds (c : Cond) (f : Flags) : Bool :=
  match c with
  | .bcc => !f.c
  | .bcs => f.c
  | .beq => f.z
  | .bne => !f.z
  | .bmi => f.n
  | .bpl => !f.n
  | .bvc => !f.v
  | .bvs => f.v

end Sys2Proof.Machine
end

