-- ==== Sys2Proof/Machine/Memory.lean ====
section
/-! DEFINITION. The variable store: its canonical form, and the reading and writing of one slot (20_memory.md R200 to
R208). -/

namespace Sys2Proof.Machine

/-- An integer as a natural number, one for each: the order of keys needs no more (entry 6). -/
def intCode : Int → Nat
  | .ofNat m => 2 * m
  | .negSucc m => 2 * m + 1

/-- A key as a list of numbers, one list for each key: the order in which the store lists its slots is the dictionary order
of these lists. The order is the model's own and no rule depends on it (entry 6). -/
def keyCode : Key → List Nat
  | .num m => [0, intCode m]
  | .name id => 1 :: id.map Char.toNat
  | .nameOff id off => 2 :: intCode off :: id.map Char.toNat

/-- Dictionary order on lists of numbers. -/
def codeLt : List Nat → List Nat → Bool
  | [], [] => false
  | [], _ :: _ => true
  | _ :: _, [] => false
  | p :: ps, q :: qs => decide (p < q) || (p == q && codeLt ps qs)

/-- The order of keys in the store. -/
def keyLt (j k : Key) : Bool := codeLt (keyCode j) (keyCode k)

/-- The canonical form of the store: keys strictly rising. What an unlisted key looks up as is "no slot", which no entry
is, so a slot holding 0 stays listed (20_memory.md R204; entry 6). -/
def Memory.wf : Memory → Bool
  | [] => true
  | e :: m => m.all (fun e' => keyLt e.1 e'.1) && Memory.wf m

/-- The slot of a key, `none` where the key has no slot (20_memory.md R203). -/
def Memory.find? : Memory → Key → Option Int
  | [], _ => none
  | e :: m, k => if e.1 = k then some e.2 else Memory.find? m k

/-- `MemRead(k, 1)`: the integer the slot holds, or 0 where there is no slot (20_memory.md R203). -/
def Memory.read (m : Memory) (k : Key) : Int := (m.find? k).getD 0

/-- `MemWrite(k, 1, v)`: sets the slot, creating it if it is absent (20_memory.md R204). -/
def Memory.write : Memory → Key → Int → Memory
  | [], k, v => [(k, v)]
  | e :: m, k, v =>
    if e.1 = k then (k, v) :: m
    else if keyLt k e.1 then (k, v) :: e :: m
    else e :: Memory.write m k v

end Sys2Proof.Machine
end

