-- ==== Sys2Proof/Machine/Ops.lean ====
section
/-! DEFINITION. The operations the meanings share: the frame of a tick, taking a fault, the ends of a run, registers, the
stack, the return address and the fetch (00_scope.md R15, R18; 10_state.md R105 to R125; 60_exceptions.md R701 to R703;
70_reset_and_hazards.md R808). -/

namespace Sys2Proof.Machine

/-! ### Faults and the frame of a tick -/

/-- What a rule raises: the kind of the fault and, for `ReservedKeyAccess`, the key (60_exceptions.md R701). -/
structure Raised where
  kind : FaultKind
  key : Option Key
  deriving DecidableEq, Repr

/-- What the pseudocode of an instruction gives: the state it leaves, or the fault it raises. -/
abbrev Effect := Except Raised State

/-- The code of a fault kind, in the table of 60_exceptions.md R701. -/
def FaultKind.code : FaultKind → Nat
  | .illegalInstruction => 1
  | .reservedKeyAccess => 2
  | .invalidBranchSelector => 3

/-- The code of the fault a run ended in, none where it did not (60_exceptions.md R701, R702). -/
def Status.faultCode : Status → Option Nat
  | .ready => none
  | .completed => none
  | .incomplete => none
  | .faulted kind _ => some kind.code

/-- The source line of the record at `pc`; 0 where there is no record, which no step meets (60_exceptions.md R701;
entry 8). -/
def State.lineAtPc (s : State) : Nat :=
  match s.program[s.pc]? with
  | some r => r.line
  | none => 0

/-- TAKING A FAULT, in the state before the tick: `STATUS <- Faulted(kind, info)` and nothing else, so `pc` stays at
`pc_fault` and `TICKS` is not incremented (60_exceptions.md R701, R703). -/
def State.takeFault (s : State) (e : Raised) : State :=
  { s with status := .faulted e.kind ⟨s.pc, s.lineAtPc, e.key⟩ }

/-- The advance before dispatch: `pc <- pc + 1` (10_state.md R107). -/
def State.advance (s : State) : State := { s with pc := s.pc + 1 }

/-- `TICKS <- TICKS + 1` (70_reset_and_hazards.md R808, R809). -/
def State.countTick (s : State) : State := { s with ticks := s.ticks + 1 }

/-- One tick of the run loop around an instruction's pseudocode (70_reset_and_hazards.md R808): advance, execute, count
the tick; a fault restores the saved state and sets `STATUS`. -/
def oneTick (body : State → Effect) (s : State) : Outcome :=
  match body s.advance with
  | .ok t => .next t.countTick
  | .error e => .next (s.takeFault e)

/-- A tick of an instruction that can raise no fault. -/
def plainTick (body : State → State) (s : State) : Outcome :=
  oneTick (fun t => .ok (body t)) s

/-! ### Registers -/

/-- `x[A] <- v; SetNZ(x[A])` (10_state.md R104; 00_scope.md R16). -/
def State.loadA (s : State) (v : Byte) : State := { s with a := v, flags := s.flags.setNZ v }

/-- `x[X] <- v; SetNZ(x[X])`. -/
def State.loadX (s : State) (v : Byte) : State := { s with x := v, flags := s.flags.setNZ v }

/-- `x[Y] <- v; SetNZ(x[Y])`. -/
def State.loadY (s : State) (v : Byte) : State := { s with y := v, flags := s.flags.setNZ v }

/-! ### Stack -/

/-- `depth` (00_scope.md R15). -/
abbrev State.depth (s : State) : Nat := s.stack.length

/-- `Push(b)` (10_state.md R121). -/
def State.push (s : State) (b : Byte) : State := { s with stack := s.stack ++ [b] }

/-- The byte `Pop()` returns: the top of the stack, or 0 where it is empty (10_state.md R122, R123). -/
def State.top (s : State) : Byte := s.stack.getLast?.getD 0

/-- The state `Pop()` leaves: an empty stack stays empty (10_state.md R122, R123). -/
def State.drop (s : State) : State := { s with stack := s.stack.dropLast }

/-- A stack of exactly `m` entries: the bottom ones are kept, and zero bytes are added on top (46_stack_transfer.md
R551). -/
def resize (st : List Byte) (m : Nat) : List Byte :=
  if m < st.length then st.take m else st ++ List.replicate (m - st.length) 0

/-! ### Program counter -/

/-- `N`, the number of records of the Program. -/
abbrev State.programSize (s : State) : Nat := s.program.length

/-- `pc <- t`. -/
def State.goto (s : State) (t : Nat) : State := { s with pc := t }

/-- `if f then pc <- t` (45_control.md R501). -/
def State.gotoIf (s : State) (f : Bool) (t : Nat) : State := if f then s.goto t else s

/-- Pushes the return address, the high byte first (45_control.md R510; 20_memory.md R210). -/
def State.pushReturn (s : State) : State :=
  (s.push (BitVec.ofNat 8 ((s.pc >>> 8) &&& 0xFF))).push (BitVec.ofNat 8 (s.pc &&& 0xFF))

/-- THE RETURN: the pseudocode of `rts` (45_control.md R511). With fewer than two bytes on the stack nothing is popped and
`pc <- N`; otherwise the low byte is popped, then the high byte, with no adjustment. -/
def State.doReturn (s : State) : State :=
  if s.depth < 2 then s.goto s.programSize
  else s.drop.drop.goto (s.drop.top.toNat * 256 + s.top.toNat)

/-! ### The run loop's fetch -/

/-- What the run loop finds before a tick (70_reset_and_hazards.md R808). -/
inductive Fetched where
  /-- The run has already ended. -/
  | stopped (r : Fault)
  /-- The loop ends here, or the fetched record is illegal: the state it leaves. -/
  | settled (t : State)
  /-- A record to execute. -/
  | run (i : Instr)

/-- The loop's tests and the fetch (70_reset_and_hazards.md R808, R810, R811). `pc` is tested first: out of range ends
the run as completed, whatever the budget (60_exceptions.md R716). A record the decoder refuses raises
`IllegalInstruction` and is never executed (60_exceptions.md R712). -/
def State.fetch (s : State) : Fetched :=
  match s.status with
  | .ready =>
    match s.program[s.pc]? with
    | none => .settled { s with status := .completed }
    | some r =>
      if s.ticks < s.budget then
        match decode r.raw with
        | .ok i => .run i
        | .error _ => .settled (s.takeFault ⟨.illegalInstruction, none⟩)
      else .settled { s with status := .incomplete }
  | .completed | .incomplete | .faulted _ _ => .stopped .runEnded

end Sys2Proof.Machine
end

