-- ==== Sys2Proof/Machine/Operands.lean ====
section
/-! DEFINITION. The operand forms: `LoadOp` and `StoreOp` of each addressing mode (30_encoding.md R320 to R327;
48_load_store.md R606). -/

namespace Sys2Proof.Machine

/-- The operand forms for data (48_load_store.md R606). ZeroPage and Absolute are one form: they "behave identically in
every instruction" (30_encoding.md R324). -/
inductive Operand where
  | acc
  | imm (v : Int)
  | var (k : Key)
  deriving DecidableEq, Repr

/-- The operand forms an instruction can write. No legal instruction stores to an immediate (30_encoding.md R323). -/
inductive Place where
  | acc
  | var (k : Key)
  deriving DecidableEq, Repr

/-- A place read as an operand. -/
def Place.operand : Place → Operand
  | .acc => .acc
  | .var k => .var k

/-- `k == BRANCH_TYPE_KEY or k == BRANCH_TAKEN_KEY`; a parameter left unset equals no key (20_memory.md R207;
60_exceptions.md R710). -/
def State.reserved (s : State) (k : Key) : Bool :=
  s.cfg.branchTypeKey == some k || s.cfg.branchTakenKey == some k

/-- The fault of an access to a reserved key (60_exceptions.md R710). -/
def reservedKey (k : Key) : Raised := ⟨.reservedKeyAccess, some k⟩

/-- `LoadOp()` (30_encoding.md R321, R323, R324). -/
def State.loadOp (s : State) : Operand → Except Raised Byte
  | .acc => .ok s.a
  | .imm v => .ok (fold v)
  | .var k => if s.reserved k then .error (reservedKey k) else .ok (fold (s.vars.read k))

/-- `StoreOp(v)` (30_encoding.md R321, R325): what is stored is folded to a byte. -/
def State.storeOp (s : State) (p : Place) (v : Int) : Effect :=
  match p with
  | .acc => .ok { s with a := fold v }
  | .var k =>
    if s.reserved k then .error (reservedKey k)
    else .ok { s with vars := s.vars.write k ((fold v).toNat : Int) }

/-- Reads the operand and goes on with its byte. -/
def withOperand (o : Operand) (f : Byte → State → State) (s : State) : Effect :=
  match s.loadOp o with
  | .ok m => .ok (f m s)
  | .error e => .error e

/-- A read-modify-write: the operand is read once, and the result is stored once, to the same place. `op` gives the result
and the new flags from what was read and the old flags (42_shift_rotate.md R440; 44_inc_dec.md R480, R481). -/
def modify (p : Place) (op : Byte → Flags → Byte × Flags) (s : State) : Effect :=
  match s.loadOp p.operand with
  | .ok m => { s with flags := (op m s.flags).2 }.storeOp p ((op m s.flags).1.toNat : Int)
  | .error e => .error e

end Sys2Proof.Machine
end

