-- ==== Sys2Proof/Machine/Arithmetic.lean ====
section
/-! DEFINITION. Arithmetic: adc and sbc (40_arithmetic.md). -/

namespace Sys2Proof.Machine

/-- `AddCore(M)` (R400). The sum `r` is exact and unfolded, and the carry in it is the one before the instruction. -/
def addCore (m : Byte) (s : State) : State :=
  let r : Nat := s.a.toNat + m.toNat + b2i s.flags.c
  { s with a := fold r, flags := s.flags.afterAdd s.a m r }

/-- `sbc` adds the 8-bit one's complement `255 - M` (R402). -/
def subCore (m : Byte) (s : State) : State := addCore (BitVec.ofNat 8 (255 - m.toNat)) s

/-- `adc #v`, tag 0x69 (R401). -/
def execAdcImm (v : Int) (s : State) : Outcome := oneTick (withOperand (.imm v) addCore) s

/-- `adc k (ZeroPage)`, tag 0x65 (R401). -/
def execAdcZp (k : Key) (s : State) : Outcome := oneTick (withOperand (.var k) addCore) s

/-- `adc k`, tag 0x6D (R401). -/
def execAdcAbs (k : Key) (s : State) : Outcome := oneTick (withOperand (.var k) addCore) s

/-- `sbc #v`, tag 0xE9 (R402). -/
def execSbcImm (v : Int) (s : State) : Outcome := oneTick (withOperand (.imm v) subCore) s

/-- `sbc k (ZeroPage)`, tag 0xE5 (R402). -/
def execSbcZp (k : Key) (s : State) : Outcome := oneTick (withOperand (.var k) subCore) s

/-- `sbc k`, tag 0xED (R402). -/
def execSbcAbs (k : Key) (s : State) : Outcome := oneTick (withOperand (.var k) subCore) s

end Sys2Proof.Machine
end

