-- ==== Sys2Proof/Machine/Compare.lean ====
section
/-! DEFINITION. Compares: cmp, cpx, cpy (43_compare.md). -/

namespace Sys2Proof.Machine

/-- `Compare(R, M)` writes flags alone (R460). -/
def compareCore (r m : Byte) (s : State) : State := { s with flags := s.flags.afterCompare r m }

/-- `cmp #v`, tag 0xC9 (R461). -/
def execCmpImm (v : Int) (s : State) : Outcome := oneTick (withOperand (.imm v) fun m t => compareCore t.a m t) s

/-- `cmp k (ZeroPage)`, tag 0xC5 (R461). -/
def execCmpZp (k : Key) (s : State) : Outcome := oneTick (withOperand (.var k) fun m t => compareCore t.a m t) s

/-- `cmp k`, tag 0xCD (R461). -/
def execCmpAbs (k : Key) (s : State) : Outcome := oneTick (withOperand (.var k) fun m t => compareCore t.a m t) s

/-- `cpx #v`, tag 0xE0 (R462). -/
def execCpxImm (v : Int) (s : State) : Outcome := oneTick (withOperand (.imm v) fun m t => compareCore t.x m t) s

/-- `cpx k (ZeroPage)`, tag 0xE4 (R462). -/
def execCpxZp (k : Key) (s : State) : Outcome := oneTick (withOperand (.var k) fun m t => compareCore t.x m t) s

/-- `cpx k`, tag 0xEC (R462). -/
def execCpxAbs (k : Key) (s : State) : Outcome := oneTick (withOperand (.var k) fun m t => compareCore t.x m t) s

/-- `cpy #v`, tag 0xC0 (R463). -/
def execCpyImm (v : Int) (s : State) : Outcome := oneTick (withOperand (.imm v) fun m t => compareCore t.y m t) s

/-- `cpy k (ZeroPage)`, tag 0xC4 (R463). -/
def execCpyZp (k : Key) (s : State) : Outcome := oneTick (withOperand (.var k) fun m t => compareCore t.y m t) s

/-- `cpy k`, tag 0xCC (R463). -/
def execCpyAbs (k : Key) (s : State) : Outcome := oneTick (withOperand (.var k) fun m t => compareCore t.y m t) s

end Sys2Proof.Machine
end

