-- ==== Sys2Proof/Machine/Control.lean ====
section
/-! DEFINITION. Control transfer: the eight branches, jmp, jsr, rts, rti, branch (45_control.md). While a body runs, `pc`
already holds the index of the next record (10_state.md R107). -/

namespace Sys2Proof.Machine

/-- A conditional branch: `if Cond(c) then pc <- t` (R500 to R508). -/
def branchOn (c : Cond) (t : Nat) (s : State) : State := s.gotoIf (c.holds s.flags) t

/-- `jsr`: push the advanced pc, then go to the target (R510). -/
def callTo (t : Nat) (s : State) : State := s.pushReturn.goto t

/-- `rti`: `Unpack(Pop())`, then exactly the return of `rts` on the remaining stack (R512). It has no interrupt meaning
(60_exceptions.md R718). -/
def flagsThenReturn (s : State) : State := { s.drop with flags := Flags.unpack s.top }.doReturn

/-- `branch` once its condition is chosen: the branch, and the record of whether the condition held (R520). -/
def recordedBranch (c : Cond) (t : Nat) (s : State) : State :=
  { branchOn c t s with btaken := .taken (c.holds s.flags) }

/-- `branch`: an invalid selector faults first, an unset one acts as bcc (R520; 60_exceptions.md R711). -/
def selectedBranch (t : Nat) (s : State) : Effect :=
  match s.bsel with
  | .invalid => .error ⟨.invalidBranchSelector, none⟩
  | .unset => .ok (recordedBranch .bcc t s)
  | .cond c => .ok (recordedBranch c t s)

/-- `bcc t`, tag 0x90 (R501). -/
def execBcc (t : Nat) (s : State) : Outcome := plainTick (branchOn .bcc t) s

/-- `bcs t`, tag 0xB0 (R502). -/
def execBcs (t : Nat) (s : State) : Outcome := plainTick (branchOn .bcs t) s

/-- `beq t`, tag 0xF0 (R503). -/
def execBeq (t : Nat) (s : State) : Outcome := plainTick (branchOn .beq t) s

/-- `bne t`, tag 0xD0 (R504). -/
def execBne (t : Nat) (s : State) : Outcome := plainTick (branchOn .bne t) s

/-- `bmi t`, tag 0x30 (R505). -/
def execBmi (t : Nat) (s : State) : Outcome := plainTick (branchOn .bmi t) s

/-- `bpl t`, tag 0x10 (R506). -/
def execBpl (t : Nat) (s : State) : Outcome := plainTick (branchOn .bpl t) s

/-- `bvc t`, tag 0x50 (R507). -/
def execBvc (t : Nat) (s : State) : Outcome := plainTick (branchOn .bvc t) s

/-- `bvs t`, tag 0x70 (R508). -/
def execBvs (t : Nat) (s : State) : Outcome := plainTick (branchOn .bvs t) s

/-- `jmp t`, tag 0x4C (R509). -/
def execJmp (t : Nat) (s : State) : Outcome := plainTick (fun u => u.goto t) s

/-- `jsr t`, tag 0x20 (R510). -/
def execJsr (t : Nat) (s : State) : Outcome := plainTick (callTo t) s

/-- `rts`, tag 0x60 (R511). -/
def execRts (s : State) : Outcome := plainTick State.doReturn s

/-- `rti`, tag 0x40 (R512). -/
def execRti (s : State) : Outcome := plainTick flagsThenReturn s

/-- `branch t`, tag 0x02 (R520). -/
def execBranch (t : Nat) (s : State) : Outcome := oneTick (selectedBranch t) s

end Sys2Proof.Machine
end

