-- ==== Sys2Proof/Machine/FlagNop.lean ====
section
/-! DEFINITION. Flag instructions and no-ops: clc, sec, clv, cld, cli, sei, sed, nop (47_flags_nop.md). The no-ops change
nothing but `pc` and `TICKS` (30_encoding.md R316). -/

namespace Sys2Proof.Machine

/-- `clc`, tag 0x18 (R580). -/
def execClc (s : State) : Outcome := plainTick (fun t => { t with flags := { t.flags with c := false } }) s

/-- `sec`, tag 0x38 (R581). -/
def execSec (s : State) : Outcome := plainTick (fun t => { t with flags := { t.flags with c := true } }) s

/-- `clv`, tag 0xB8 (R582). -/
def execClv (s : State) : Outcome := plainTick (fun t => { t with flags := { t.flags with v := false } }) s

/-- `cld`, tag 0xD8 (R583). -/
def execCld (s : State) : Outcome := plainTick (fun t => t) s

/-- `cli`, tag 0x58 (R584). -/
def execCli (s : State) : Outcome := plainTick (fun t => t) s

/-- `sei`, tag 0x78 (R585). -/
def execSei (s : State) : Outcome := plainTick (fun t => t) s

/-- `sed`, tag 0xF8 (R586). -/
def execSed (s : State) : Outcome := plainTick (fun t => t) s

/-- `nop`, tag 0xEA (R587). -/
def execNop (s : State) : Outcome := plainTick (fun t => t) s

end Sys2Proof.Machine
end

