-- ==== Sys2Proof/Machine/IncDec.lean ====
section
/-! DEFINITION. Increment and decrement: inc, dec, inx, iny, dex, dey (44_inc_dec.md). -/

namespace Sys2Proof.Machine

/-- `fold(v + 1)` (R480, R482, R483). -/
def incByte (m : Byte) : Byte := fold ((m.toNat : Int) + 1)

/-- `fold(v - 1)` (R481, R484, R485). -/
def decByte (m : Byte) : Byte := fold ((m.toNat : Int) - 1)

/-- A slot is replaced by a result computed from it, and Z and N describe the result (R480, R481). -/
def stepSlot (k : Key) (f : Byte → Byte) (s : State) : Effect := modify (.var k) (fun m g => (f m, g.setNZ (f m))) s

/-- `inc k (ZeroPage)`, tag 0xE6 (R480). -/
def execIncZp (k : Key) (s : State) : Outcome := oneTick (stepSlot k incByte) s

/-- `inc k`, tag 0xEE (R480). -/
def execIncAbs (k : Key) (s : State) : Outcome := oneTick (stepSlot k incByte) s

/-- `dec k (ZeroPage)`, tag 0xC6 (R481). -/
def execDecZp (k : Key) (s : State) : Outcome := oneTick (stepSlot k decByte) s

/-- `dec k`, tag 0xCE (R481). -/
def execDecAbs (k : Key) (s : State) : Outcome := oneTick (stepSlot k decByte) s

/-- `inx`, tag 0xE8 (R482). -/
def execInx (s : State) : Outcome := plainTick (fun t => t.loadX (incByte t.x)) s

/-- `iny`, tag 0xC8 (R483). -/
def execIny (s : State) : Outcome := plainTick (fun t => t.loadY (incByte t.y)) s

/-- `dex`, tag 0xCA (R484). -/
def execDex (s : State) : Outcome := plainTick (fun t => t.loadX (decByte t.x)) s

/-- `dey`, tag 0x88 (R485). -/
def execDey (s : State) : Outcome := plainTick (fun t => t.loadY (decByte t.y)) s

end Sys2Proof.Machine
end

