-- ==== Sys2Proof/Machine/LoadStore.lean ====
section
/-! DEFINITION. Loads and stores: lda, ldx, ldy, sta, stx, sty (48_load_store.md). -/

namespace Sys2Proof.Machine

/-- `x[A] <- LoadOp(); SetNZ(x[A])` (R600). -/
def loadACore (m : Byte) (s : State) : State := s.loadA m

/-- `x[X] <- LoadOp(); SetNZ(x[X])` (R601). -/
def loadXCore (m : Byte) (s : State) : State := s.loadX m

/-- `x[Y] <- LoadOp(); SetNZ(x[Y])` (R602). -/
def loadYCore (m : Byte) (s : State) : State := s.loadY m

/-- `lda #v`, tag 0xA9 (R600). -/
def execLdaImm (v : Int) (s : State) : Outcome := oneTick (withOperand (.imm v) loadACore) s

/-- `lda k (ZeroPage)`, tag 0xA5 (R600). -/
def execLdaZp (k : Key) (s : State) : Outcome := oneTick (withOperand (.var k) loadACore) s

/-- `lda k`, tag 0xAD (R600). -/
def execLdaAbs (k : Key) (s : State) : Outcome := oneTick (withOperand (.var k) loadACore) s

/-- `ldx #v`, tag 0xA2 (R601). -/
def execLdxImm (v : Int) (s : State) : Outcome := oneTick (withOperand (.imm v) loadXCore) s

/-- `ldx k (ZeroPage)`, tag 0xA6 (R601). -/
def execLdxZp (k : Key) (s : State) : Outcome := oneTick (withOperand (.var k) loadXCore) s

/-- `ldx k`, tag 0xAE (R601). -/
def execLdxAbs (k : Key) (s : State) : Outcome := oneTick (withOperand (.var k) loadXCore) s

/-- `ldy #v`, tag 0xA0 (R602). -/
def execLdyImm (v : Int) (s : State) : Outcome := oneTick (withOperand (.imm v) loadYCore) s

/-- `ldy k (ZeroPage)`, tag 0xA4 (R602). -/
def execLdyZp (k : Key) (s : State) : Outcome := oneTick (withOperand (.var k) loadYCore) s

/-- `ldy k`, tag 0xAC (R602). -/
def execLdyAbs (k : Key) (s : State) : Outcome := oneTick (withOperand (.var k) loadYCore) s

/-- `sta k (ZeroPage)`, tag 0x85 (R603). -/
def execStaZp (k : Key) (s : State) : Outcome := oneTick (fun t => t.storeOp (.var k) (t.a.toNat : Int)) s

/-- `sta k`, tag 0x8D (R603). -/
def execStaAbs (k : Key) (s : State) : Outcome := oneTick (fun t => t.storeOp (.var k) (t.a.toNat : Int)) s

/-- `stx k (ZeroPage)`, tag 0x86 (R604). -/
def execStxZp (k : Key) (s : State) : Outcome := oneTick (fun t => t.storeOp (.var k) (t.x.toNat : Int)) s

/-- `stx k`, tag 0x8E (R604). -/
def execStxAbs (k : Key) (s : State) : Outcome := oneTick (fun t => t.storeOp (.var k) (t.x.toNat : Int)) s

/-- `sty k (ZeroPage)`, tag 0x84 (R605). -/
def execStyZp (k : Key) (s : State) : Outcome := oneTick (fun t => t.storeOp (.var k) (t.y.toNat : Int)) s

/-- `sty k`, tag 0x8C (R605). -/
def execStyAbs (k : Key) (s : State) : Outcome := oneTick (fun t => t.storeOp (.var k) (t.y.toNat : Int)) s

end Sys2Proof.Machine
end

