-- ==== Sys2Proof/Machine/Logical.lean ====
section
/-! DEFINITION. Logical operations: and, ora, eor, bit (41_logical.md). -/

namespace Sys2Proof.Machine

/-- `x[A] <- x[A] & M; SetNZ(x[A])` (R420). -/
def andCore (m : Byte) (s : State) : State := s.loadA (s.a &&& m)

/-- `x[A] <- x[A] | M; SetNZ(x[A])` (R421). -/
def oraCore (m : Byte) (s : State) : State := s.loadA (s.a ||| m)

/-- `x[A] <- x[A] ^ M; SetNZ(x[A])` (R422). -/
def eorCore (m : Byte) (s : State) : State := s.loadA (s.a ^^^ m)

/-- `bit` writes flags alone (R423). -/
def bitCore (m : Byte) (s : State) : State := { s with flags := s.flags.afterBit s.a m }

/-- `and #v`, tag 0x29 (R420). -/
def execAndImm (v : Int) (s : State) : Outcome := oneTick (withOperand (.imm v) andCore) s

/-- `and k (ZeroPage)`, tag 0x25 (R420). -/
def execAndZp (k : Key) (s : State) : Outcome := oneTick (withOperand (.var k) andCore) s

/-- `and k`, tag 0x2D (R420). -/
def execAndAbs (k : Key) (s : State) : Outcome := oneTick (withOperand (.var k) andCore) s

/-- `ora #v`, tag 0x09 (R421). -/
def execOraImm (v : Int) (s : State) : Outcome := oneTick (withOperand (.imm v) oraCore) s

/-- `ora k (ZeroPage)`, tag 0x05 (R421). -/
def execOraZp (k : Key) (s : State) : Outcome := oneTick (withOperand (.var k) oraCore) s

/-- `ora k`, tag 0x0D (R421). -/
def execOraAbs (k : Key) (s : State) : Outcome := oneTick (withOperand (.var k) oraCore) s

/-- `eor #v`, tag 0x49 (R422). -/
def execEorImm (v : Int) (s : State) : Outcome := oneTick (withOperand (.imm v) eorCore) s

/-- `eor k (ZeroPage)`, tag 0x45 (R422). -/
def execEorZp (k : Key) (s : State) : Outcome := oneTick (withOperand (.var k) eorCore) s

/-- `eor k`, tag 0x4D (R422). -/
def execEorAbs (k : Key) (s : State) : Outcome := oneTick (withOperand (.var k) eorCore) s

/-- `bit k (ZeroPage)`, tag 0x24 (R423). -/
def execBitZp (k : Key) (s : State) : Outcome := oneTick (withOperand (.var k) bitCore) s

/-- `bit k`, tag 0x2C (R423). -/
def execBitAbs (k : Key) (s : State) : Outcome := oneTick (withOperand (.var k) bitCore) s

end Sys2Proof.Machine
end

