-- ==== Sys2Proof/Machine/Shift.lean ====
section
/-! DEFINITION. Shifts and rotates: asl, lsr, rol, ror (42_shift_rotate.md). -/

namespace Sys2Proof.Machine

/-- The flags of the shift frame: C is the bit shifted out, Z and N describe the result, V is unchanged (R440). -/
def shiftFrame (op : Byte → Bool → Byte × Bool) (m : Byte) (f : Flags) : Byte × Flags :=
  ((op m f.c).1, { f with c := (op m f.c).2 }.setNZ (op m f.c).1)

/-- The result and the carry out of `asl` (R441). -/
def aslOp (m : Byte) (_ : Bool) : Byte × Bool := (fold ((m.toNat <<< 1 : Nat) : Int), m.getLsbD 7)

/-- The result and the carry out of `lsr` (R442). -/
def lsrOp (m : Byte) (_ : Bool) : Byte × Bool := (fold ((m.toNat >>> 1 : Nat) : Int), m.getLsbD 0)

/-- The result and the carry out of `rol`: the old carry enters at bit 0 (R443). -/
def rolOp (m : Byte) (c : Bool) : Byte × Bool := (fold (((m.toNat <<< 1) ||| b2i c : Nat) : Int), m.getLsbD 7)

/-- The result and the carry out of `ror`: the old carry enters at bit 7 (R444). -/
def rorOp (m : Byte) (c : Bool) : Byte × Bool := (fold (((m.toNat >>> 1) ||| (b2i c <<< 7) : Nat) : Int), m.getLsbD 0)

/-- A shift or rotate of a place (R440). -/
def shift (p : Place) (op : Byte → Bool → Byte × Bool) (s : State) : Effect := modify p (shiftFrame op) s

/-- `asl a`, tag 0x0A (R441). -/
def execAslAcc (s : State) : Outcome := oneTick (shift .acc aslOp) s

/-- `asl k (ZeroPage)`, tag 0x06 (R441). -/
def execAslZp (k : Key) (s : State) : Outcome := oneTick (shift (.var k) aslOp) s

/-- `asl k`, tag 0x0E (R441). -/
def execAslAbs (k : Key) (s : State) : Outcome := oneTick (shift (.var k) aslOp) s

/-- `lsr a`, tag 0x4A (R442). -/
def execLsrAcc (s : State) : Outcome := oneTick (shift .acc lsrOp) s

/-- `lsr k (ZeroPage)`, tag 0x46 (R442). -/
def execLsrZp (k : Key) (s : State) : Outcome := oneTick (shift (.var k) lsrOp) s

/-- `lsr k`, tag 0x4E (R442). -/
def execLsrAbs (k : Key) (s : State) : Outcome := oneTick (shift (.var k) lsrOp) s

/-- `rol a`, tag 0x2A (R443). -/
def execRolAcc (s : State) : Outcome := oneTick (shift .acc rolOp) s

/-- `rol k (ZeroPage)`, tag 0x26 (R443). -/
def execRolZp (k : Key) (s : State) : Outcome := oneTick (shift (.var k) rolOp) s

/-- `rol k`, tag 0x2E (R443). -/
def execRolAbs (k : Key) (s : State) : Outcome := oneTick (shift (.var k) rolOp) s

/-- `ror a`, tag 0x6A (R444). -/
def execRorAcc (s : State) : Outcome := oneTick (shift .acc rorOp) s

/-- `ror k (ZeroPage)`, tag 0x66 (R444). -/
def execRorZp (k : Key) (s : State) : Outcome := oneTick (shift (.var k) rorOp) s

/-- `ror k`, tag 0x6E (R444). -/
def execRorAbs (k : Key) (s : State) : Outcome := oneTick (shift (.var k) rorOp) s

end Sys2Proof.Machine
end

