-- ==== Sys2Proof/Machine/StackTransfer.lean ====
section
/-! DEFINITION. Stack and register transfers: pha, pla, php, plp, tax, tay, txa, tya, tsx, txs (46_stack_transfer.md). -/

namespace Sys2Proof.Machine

/-- `pha`, tag 0x48 (R540). -/
def execPha (s : State) : Outcome := plainTick (fun t => t.push t.a) s

/-- `pla`, tag 0x68 (R541). -/
def execPla (s : State) : Outcome := plainTick (fun t => t.drop.loadA t.top) s

/-- `php`, tag 0x08 (R542). -/
def execPhp (s : State) : Outcome := plainTick (fun t => t.push t.flags.pack) s

/-- `plp`, tag 0x28 (R543). -/
def execPlp (s : State) : Outcome := plainTick (fun t => { t.drop with flags := Flags.unpack t.top }) s

/-- `tax`, tag 0xAA (R544). -/
def execTax (s : State) : Outcome := plainTick (fun t => t.loadX t.a) s

/-- `tay`, tag 0xA8 (R545). -/
def execTay (s : State) : Outcome := plainTick (fun t => t.loadY t.a) s

/-- `txa`, tag 0x8A (R546). -/
def execTxa (s : State) : Outcome := plainTick (fun t => t.loadA t.x) s

/-- `tya`, tag 0x98 (R547). -/
def execTya (s : State) : Outcome := plainTick (fun t => t.loadA t.y) s

/-- `tsx`, tag 0xBA (R550). -/
def execTsx (s : State) : Outcome := plainTick (fun t => t.loadX (fold (255 - (t.depth : Int)))) s

/-- `txs`, tag 0x9A (R551). -/
def execTxs (s : State) : Outcome := plainTick (fun t => { t with stack := resize t.stack t.x.toNat }) s

end Sys2Proof.Machine
end

