-- ==== Sys2Proof/Machine/Dispatch.lean ====
section
/-! DEFINITION. The dispatch: one arm per instruction, each a direct call of its meaning (30_encoding.md R311). -/

namespace Sys2Proof.Machine

def exec (i : Instr) (s : State) : Host.Outcome State Fault Refusal :=
  match i with
  -- 40_arithmetic.md
  | .adcImm v => Sys2Proof.Machine.execAdcImm v s
  | .adcZp k => Sys2Proof.Machine.execAdcZp k s
  | .adcAbs k => Sys2Proof.Machine.execAdcAbs k s
  | .sbcImm v => Sys2Proof.Machine.execSbcImm v s
  | .sbcZp k => Sys2Proof.Machine.execSbcZp k s
  | .sbcAbs k => Sys2Proof.Machine.execSbcAbs k s
  -- 41_logical.md
  | .andImm v => Sys2Proof.Machine.execAndImm v s
  | .andZp k => Sys2Proof.Machine.execAndZp k s
  | .andAbs k => Sys2Proof.Machine.execAndAbs k s
  | .oraImm v => Sys2Proof.Machine.execOraImm v s
  | .oraZp k => Sys2Proof.Machine.execOraZp k s
  | .oraAbs k => Sys2Proof.Machine.execOraAbs k s
  | .eorImm v => Sys2Proof.Machine.execEorImm v s
  | .eorZp k => Sys2Proof.Machine.execEorZp k s
  | .eorAbs k => Sys2Proof.Machine.execEorAbs k s
  | .bitZp k => Sys2Proof.Machine.execBitZp k s
  | .bitAbs k => Sys2Proof.Machine.execBitAbs k s
  -- 42_shift_rotate.md
  | .aslAcc => Sys2Proof.Machine.execAslAcc s
  | .aslZp k => Sys2Proof.Machine.execAslZp k s
  | .aslAbs k => Sys2Proof.Machine.execAslAbs k s
  | .lsrAcc => Sys2Proof.Machine.execLsrAcc s
  | .lsrZp k => Sys2Proof.Machine.execLsrZp k s
  | .lsrAbs k => Sys2Proof.Machine.execLsrAbs k s
  | .rolAcc => Sys2Proof.Machine.execRolAcc s
  | .rolZp k => Sys2Proof.Machine.execRolZp k s
  | .rolAbs k => Sys2Proof.Machine.execRolAbs k s
  | .rorAcc => Sys2Proof.Machine.execRorAcc s
  | .rorZp k => Sys2Proof.Machine.execRorZp k s
  | .rorAbs k => Sys2Proof.Machine.execRorAbs k s
  -- 43_compare.md
  | .cmpImm v => Sys2Proof.Machine.execCmpImm v s
  | .cmpZp k => Sys2Proof.Machine.execCmpZp k s
  | .cmpAbs k => Sys2Proof.Machine.execCmpAbs k s
  | .cpxImm v => Sys2Proof.Machine.execCpxImm v s
  | .cpxZp k => Sys2Proof.Machine.execCpxZp k s
  | .cpxAbs k => Sys2Proof.Machine.execCpxAbs k s
  | .cpyImm v => Sys2Proof.Machine.execCpyImm v s
  | .cpyZp k => Sys2Proof.Machine.execCpyZp k s
  | .cpyAbs k => Sys2Proof.Machine.execCpyAbs k s
  -- 44_inc_dec.md
  | .incZp k => Sys2Proof.Machine.execIncZp k s
  | .incAbs k => Sys2Proof.Machine.execIncAbs k s
  | .decZp k => Sys2Proof.Machine.execDecZp k s
  | .decAbs k => Sys2Proof.Machine.execDecAbs k s
  | .inx => Sys2Proof.Machine.execInx s
  | .iny => Sys2Proof.Machine.execIny s
  | .dex => Sys2Proof.Machine.execDex s
  | .dey => Sys2Proof.Machine.execDey s
  -- 45_control.md
  | .bcc t => Sys2Proof.Machine.execBcc t s
  | .bcs t => Sys2Proof.Machine.execBcs t s
  | .beq t => Sys2Proof.Machine.execBeq t s
  | .bne t => Sys2Proof.Machine.execBne t s
  | .bmi t => Sys2Proof.Machine.execBmi t s
  | .bpl t => Sys2Proof.Machine.execBpl t s
  | .bvc t => Sys2Proof.Machine.execBvc t s
  | .bvs t => Sys2Proof.Machine.execBvs t s
  | .jmp t => Sys2Proof.Machine.execJmp t s
  | .jsr t => Sys2Proof.Machine.execJsr t s
  | .rts => Sys2Proof.Machine.execRts s
  | .rti => Sys2Proof.Machine.execRti s
  | .branch t => Sys2Proof.Machine.execBranch t s
  -- 46_stack_transfer.md
  | .pha => Sys2Proof.Machine.execPha s
  | .pla => Sys2Proof.Machine.execPla s
  | .php => Sys2Proof.Machine.execPhp s
  | .plp => Sys2Proof.Machine.execPlp s
  | .tax => Sys2Proof.Machine.execTax s
  | .tay => Sys2Proof.Machine.execTay s
  | .txa => Sys2Proof.Machine.execTxa s
  | .tya => Sys2Proof.Machine.execTya s
  | .tsx => Sys2Proof.Machine.execTsx s
  | .txs => Sys2Proof.Machine.execTxs s
  -- 47_flags_nop.md
  | .clc => Sys2Proof.Machine.execClc s
  | .sec => Sys2Proof.Machine.execSec s
  | .clv => Sys2Proof.Machine.execClv s
  | .cld => Sys2Proof.Machine.execCld s
  | .cli => Sys2Proof.Machine.execCli s
  | .sei => Sys2Proof.Machine.execSei s
  | .sed => Sys2Proof.Machine.execSed s
  | .nop => Sys2Proof.Machine.execNop s
  -- 48_load_store.md
  | .ldaImm v => Sys2Proof.Machine.execLdaImm v s
  | .ldaZp k => Sys2Proof.Machine.execLdaZp k s
  | .ldaAbs k => Sys2Proof.Machine.execLdaAbs k s
  | .ldxImm v => Sys2Proof.Machine.execLdxImm v s
  | .ldxZp k => Sys2Proof.Machine.execLdxZp k s
  | .ldxAbs k => Sys2Proof.Machine.execLdxAbs k s
  | .ldyImm v => Sys2Proof.Machine.execLdyImm v s
  | .ldyZp k => Sys2Proof.Machine.execLdyZp k s
  | .ldyAbs k => Sys2Proof.Machine.execLdyAbs k s
  | .staZp k => Sys2Proof.Machine.execStaZp k s
  | .staAbs k => Sys2Proof.Machine.execStaAbs k s
  | .stxZp k => Sys2Proof.Machine.execStxZp k s
  | .stxAbs k => Sys2Proof.Machine.execStxAbs k s
  | .styZp k => Sys2Proof.Machine.execStyZp k s
  | .styAbs k => Sys2Proof.Machine.execStyAbs k s

end Sys2Proof.Machine
end

