-- ==== Sys2Proof/Machine/Step.lean ====
section
/-! DEFINITION. The step: one iteration of the run loop (70_reset_and_hazards.md R808). -/

namespace Sys2Proof.Machine

/-- One iteration of the run loop. Where the loop's test fails, the step is the end of the run: it sets `STATUS` and
consumes no tick (70_reset_and_hazards.md R808, R810, R811; entry 7). -/
def step (s : State) : Host.Outcome State Fault Refusal :=
  match s.fetch with
  | .stopped r => .fault r
  | .settled t => .next t
  | .run i => exec i s

/-- `s` with a record at `pc` that holds the instruction of an opcode-table word, ready to run and with the budget for
one tick more. Records below `pc` that do not exist are filled with `nop` (entry 4). -/
def State.withFetchWord (s : State) (nbits w : Nat) : State :=
  let filler : Program := List.replicate (s.pc - s.program.length) ⟨0, encode .nop⟩
  { s with
    program := (s.program ++ filler).take s.pc ++ ⟨0, tableWord nbits w⟩ :: s.program.drop (s.pc + 1)
    status := .ready
    budget := max s.budget (s.ticks + 1) }

end Sys2Proof.Machine
end

