-- ==== Sys2Proof/Machine/Assembler.lean ====
section
/-! DEFINITION. The three-pass assembler, the peripheral transcriber that produces the engine's input (00_scope.md R6;
30_encoding.md R330 to R347). No rule of the engine depends on it. -/

namespace Sys2Proof.Machine

/-- The causes of an AssemblyError: the eight of R346, in its order, and one of the model's own (entry 18). -/
inductive AsmCause where
  | malformedLabel
  | unknownMnemonic
  | illegalMode
  | unsupportedMode
  | malformedExpression
  | duplicateLabel
  | unresolvedLabel
  | mixedDirection
  /-- The source has more than 65535 instructions (R307; DESIGN CHOICE, entry 18). -/
  | programTooLong
  deriving DecidableEq, Repr

/-- `AssemblyError(line, message)`, the message as its cause and the line 1-based (R330, R346; entry 17). -/
structure AsmError where
  line : Nat
  cause : AsmCause
  deriving DecidableEq, Repr

/-! ### Lines, labels and mnemonics -/

/-- The lines of a source text. -/
def splitLines : List Char → List (List Char)
  | [] => [[]]
  | c :: cs =>
    if c = '\n' then [] :: splitLines cs
    else match splitLines cs with
      | [] => [[c]]
      | l :: ls => (c :: l) :: ls

/-- Drops white space at the front. -/
def trimFront (cs : List Char) : List Char := cs.dropWhile Char.isWhitespace

/-- Strips surrounding white space (R331; entry 14). -/
def trim (cs : List Char) : List Char := (trimFront (trimFront cs).reverse).reverse

/-- A leading `label:`: the characters up to the first colon, with no white space among them (R331; entry 14). -/
def labelPrefix (cs : List Char) : Option (List Char × List Char) :=
  match cs.dropWhile fun c => !c.isWhitespace && c != ':' with
  | ':' :: rest => some (cs.takeWhile fun c => !c.isWhitespace && c != ':', rest)
  | _ => none

/-- Peels every leading label of a line: their names and what remains (R331). Each takes a character at least, so the
line's length is fuel enough. -/
def peelLabels : Nat → List Char → List (List Char) × List Char
  | 0, cs => ([], cs)
  | fuel + 1, cs =>
    match labelPrefix (trimFront cs) with
    | none => ([], trimFront cs)
    | some (l, rest) => (l :: (peelLabels fuel rest).1, (peelLabels fuel rest).2)

/-- A globalized label key: what a label is known by inside one assembly (00_scope.md R24; R333 to R335). -/
inductive LabelKey where
  | global (id : Ident)
  /-- A local label, with its enclosing global label (R334). -/
  | scoped (id : Ident) (enclosing : Ident)
  /-- An anonymous label, by its sequential number (R333). -/
  | anon (count : Nat)
  deriving DecidableEq, Repr

/-- An entry of pass 1: a label's placeholder, or an opcode entry (R333 to R337). -/
inductive Entry where
  | label (l : LabelKey)
  | op (line : Nat) (m : Mnemonic) (md : Mode) (arg : List Char)
  deriving DecidableEq, Repr

/-- What pass 1 has built: the entries in source order, each label's position, and the enclosing global label. -/
structure Pass1 where
  entries : List Entry
  table : List (LabelKey × Nat)
  enclosing : Option Ident
  anons : Nat
  deriving DecidableEq, Repr

/-- Enters a label and emits its placeholder; a duplicate is an error (R333 to R335). -/
def Pass1.define (p : Pass1) (line : Nat) (l : LabelKey) : Except AsmError Pass1 :=
  if p.table.any fun e => e.1 == l then .error ⟨line, .duplicateLabel⟩
  else .ok { p with entries := p.entries ++ [.label l], table := p.table ++ [(l, p.entries.length)] }

/-- Processes one label of a line (R332 to R335). -/
def Pass1.addLabel (p : Pass1) (line : Nat) (name : List Char) : Except AsmError Pass1 :=
  match name with
  | [] => { p with anons := p.anons + 1 }.define line (.anon (p.anons + 1))
  | c :: _ =>
    if !Ident.wf name then .error ⟨line, .malformedLabel⟩
    else if c = '@' then
      match p.enclosing with
      | none => .error ⟨line, .malformedLabel⟩
      | some g => p.define line (.scoped name g)
    else { p with enclosing := some name }.define line (.global name)

/-- Processes the labels of a line in turn. -/
def Pass1.addLabels (p : Pass1) (line : Nat) : List (List Char) → Except AsmError Pass1
  | [] => .ok p
  | l :: ls =>
    match p.addLabel line l with
    | .ok q => q.addLabels line ls
    | .error e => .error e

/-- Spellings of mnemonics (R336). -/
def namesA : List (String × Mnemonic) :=
  [("adc", .adc), ("sbc", .sbc), ("and", .and), ("ora", .ora), ("eor", .eor), ("bit", .bit), ("asl", .asl),
  ("lsr", .lsr), ("rol", .rol), ("ror", .ror), ("cmp", .cmp), ("cpx", .cpx), ("cpy", .cpy), ("inc", .inc)]

/-- Spellings of mnemonics (R336). -/
def namesB : List (String × Mnemonic) :=
  [("dec", .dec), ("inx", .inx), ("iny", .iny), ("dex", .dex), ("dey", .dey), ("bcc", .bcc), ("bcs", .bcs),
  ("beq", .beq), ("bne", .bne), ("bmi", .bmi), ("bpl", .bpl), ("bvc", .bvc), ("bvs", .bvs), ("jmp", .jmp)]

/-- Spellings of mnemonics (R336). -/
def namesC : List (String × Mnemonic) :=
  [("jsr", .jsr), ("rts", .rts), ("rti", .rti), ("branch", .branch), ("pha", .pha), ("pla", .pla), ("php", .php),
  ("plp", .plp), ("tax", .tax), ("tay", .tay), ("txa", .txa), ("tya", .tya), ("tsx", .tsx), ("txs", .txs)]

/-- Spellings of mnemonics (R336). -/
def namesD : List (String × Mnemonic) :=
  [("clc", .clc), ("sec", .sec), ("clv", .clv), ("cld", .cld), ("cli", .cli), ("sei", .sei), ("sed", .sed),
  ("nop", .nop), ("lda", .lda), ("ldx", .ldx), ("ldy", .ldy), ("sta", .sta), ("stx", .stx), ("sty", .sty)]

/-- The 56 mnemonics as they are spelled, in lower case only (R336). -/
def mnemonicNames : List (String × Mnemonic) := namesA ++ namesB ++ namesC ++ namesD

/-- The mnemonic a text spells (R336). -/
def mnemonicOf (cs : List Char) : Option Mnemonic :=
  (mnemonicNames.find? fun e => e.1.toList == cs).map fun e => e.2

/-- The mode of an argument text, the first case that applies (R337). -/
def classify (m : Mnemonic) (arg : List Char) : Except AsmCause Mode :=
  match arg with
  | [] => .ok .imp
  | ['A'] | ['a'] => .ok .acc
  | ['X'] | ['x'] | ['Y'] | ['y'] => .error .illegalMode
  | ['#'] => .error .malformedExpression
  | '#' :: _ => .ok .imm
  | '(' :: _ => .error .unsupportedMode
  | _ =>
    if arg.contains ',' then .error .unsupportedMode
    else if legalPair m .rel then .ok .rel
    else if legalPair m .abs then .ok .abs
    else .ok .zp

/-- Processes the instruction of a line (R336, R337). -/
def Pass1.addOp (p : Pass1) (line : Nat) (text : List Char) : Except AsmError Pass1 :=
  let word := text.takeWhile fun c => !c.isWhitespace
  let arg := trim (text.dropWhile fun c => !c.isWhitespace)
  match mnemonicOf word with
  | none => .error ⟨line, .unknownMnemonic⟩
  | some m =>
    match classify m arg with
    | .error c => .error ⟨line, c⟩
    | .ok md =>
      if legalPair m md then .ok { p with entries := p.entries ++ [.op line m md arg] }
      else .error ⟨line, .illegalMode⟩

/-- Pass 1 on one line: comment, white space, labels, instruction (R331). -/
def Pass1.addLine (p : Pass1) (line : Nat) (text : List Char) : Except AsmError Pass1 :=
  let body := trim (text.takeWhile fun c => c != ';')
  let peeled := peelLabels body.length body
  match p.addLabels line peeled.1 with
  | .error e => .error e
  | .ok q => if peeled.2 = [] then .ok q else q.addOp line peeled.2

/-- Pass 1 on the lines from number `line` on. -/
def Pass1.addLines (p : Pass1) (line : Nat) : List (List Char) → Except AsmError Pass1
  | [] => .ok p
  | l :: ls =>
    match p.addLine line l with
    | .ok q => q.addLines (line + 1) ls
    | .error e => .error e

/-- Pass 1 of a source text; lines are numbered from 1. -/
def pass1 (src : List Char) : Except AsmError Pass1 :=
  Pass1.addLines ⟨[], [], none, 0⟩ 1 (splitLines src)

/-! ### Expressions -/

/-- The value of a digit, a letter in any case (R340). -/
def digitValue (c : Char) : Option Nat :=
  if c.isDigit then some (c.toNat - '0'.toNat)
  else if 'a' ≤ c ∧ c ≤ 'f' then some (c.toNat - 'a'.toNat + 10)
  else if 'A' ≤ c ∧ c ≤ 'F' then some (c.toNat - 'A'.toNat + 10)
  else none

/-- The value of digits in a base, after those read so far. -/
def digitsFrom (base : Nat) (sofar : Nat) : List Char → Option Nat
  | [] => some sofar
  | c :: cs =>
    match digitValue c with
    | some d => if d < base then digitsFrom base (sofar * base + d) cs else none
    | none => none

/-- The value of one digit or more in a base. -/
def digits (base : Nat) (cs : List Char) : Option Nat := if cs = [] then none else digitsFrom base 0 cs

/-- A number: decimal, `$` hex, `%` binary or `0x` hex; `_` separators are stripped first (R340). The spec does not say where
a separator may stand, and this strips it anywhere: leading, trailing, doubled or inside a prefix (DESIGN CHOICE, entry 19). -/
def parseNumber (cs : List Char) : Option Nat :=
  match cs.filter fun c => c != '_' with
  | '$' :: ds => digits 16 ds
  | '%' :: ds => digits 2 ds
  | '0' :: 'x' :: ds | '0' :: 'X' :: ds => digits 16 ds
  | ds => digits 10 ds

/-- The terms from the middle of one on: whether each is negative, and its text (R339). -/
def termsFrom (neg : Bool) (sofar : List Char) : List Char → List (Bool × List Char)
  | [] => [(neg, sofar)]
  | c :: cs =>
    if c = '+' then (neg, sofar) :: termsFrom false [] cs
    else if c = '-' then (neg, sofar) :: termsFrom true [] cs
    else termsFrom neg (sofar ++ [c]) cs

/-- An expression split on `+` and `-`, each sign kept with the term after it (R339; entry 15). A sign that no term
follows leaves an empty term, which is no number and no identifier. -/
def terms : List Char → List (Bool × List Char)
  | '+' :: cs => termsFrom false [] cs
  | '-' :: cs => termsFrom true [] cs
  | cs => termsFrom false [] cs

/-- A term's number with its sign. -/
def termValue (t : Bool × List Char) : Option Int :=
  (parseNumber t.2).map fun d => if t.1 then -(d : Int) else d

/-- The sum of terms that are all numbers (R339). -/
def sumTerms : List (Bool × List Char) → Option Int
  | [] => some 0
  | t :: ts =>
    match termValue t, sumTerms ts with
    | some v, some w => some (v + w)
    | _, _ => none

/-- A term that is an identifier: it begins as one does. -/
def isIdentTerm (t : Bool × List Char) : Bool :=
  match t.2 with
  | [] => false
  | c :: _ => identStart c

/-- The key of an identifier term with an offset; a `-` applied to the identifier is refused (R344). -/
def identKey (t : Bool × List Char) (off : Int) : Option Key :=
  if !t.1 && Ident.wf t.2 then some (if off = 0 then .name t.2 else .nameOff t.2 off) else none

/-- The key of a variable-mode expression: a signed literal, an identifier, or an identifier and then one signed literal
(R344; DEDUCED, entry 16). Anything longer, or in another order, is refused. -/
def keyOf (arg : List Char) : Option Key :=
  match terms arg with
  | [t] => if isIdentTerm t then identKey t 0 else (termValue t).map .num
  | [t, u] => if isIdentTerm t && !isIdentTerm u then (termValue u).bind (identKey t) else none
  | _ => none

/-! ### Passes 2 and 3 -/

/-- The k-th anonymous label of a list of entries, counted from 1 (R343). -/
def nthAnon : Nat → List Entry → Option LabelKey
  | _, [] => none
  | k, .label (.anon c) :: es => if k ≤ 1 then some (.anon c) else nthAnon (k - 1) es
  | k, _ :: es => nthAnon k es

/-- Whether a label is in the table, at the position of its own placeholder: the consistency check of pass 2 (R341). -/
def Pass1.knows (p : Pass1) (l : LabelKey) : Bool :=
  match p.table.find? fun e => e.1 == l with
  | some e => p.entries[e.2]? == some (.label l)
  | none => false

/-- The label a Relative operand names; `pos` is the position of its instruction (R341 to R343). -/
def Pass1.labelOf (p : Pass1) (enclosing : Option Ident) (pos : Nat) (arg : List Char) : Except AsmCause LabelKey :=
  let known (l : LabelKey) : Except AsmCause LabelKey := if p.knows l then .ok l else .error .unresolvedLabel
  match arg with
  | ':' :: dirs =>
    let found :=
      if dirs.all (· == '+') then nthAnon dirs.length (p.entries.drop (pos + 1))
      else nthAnon dirs.length (p.entries.take pos).reverse
    if dirs = [] then .error .unresolvedLabel
    else if dirs.all (· == '+') || dirs.all (· == '-') then
      match found with
      | some l => known l
      | none => .error .unresolvedLabel
    else if dirs.all (fun c => c == '+' || c == '-') then .error .mixedDirection
    else .error .malformedLabel
  | '@' :: _ =>
    match enclosing with
    | some g => known (.scoped arg g)
    | none => .error .unresolvedLabel
  | _ => known (.global arg)

/-- An entry with its operand resolved. A Relative operand still holds its label (R338). -/
inductive Resolved where
  | label (l : LabelKey)
  | op (line : Nat) (m : Mnemonic) (md : Mode) (operand : RawOperand)
  | jump (line : Nat) (m : Mnemonic) (l : LabelKey)
  deriving DecidableEq, Repr

/-- Resolves the operand of an opcode entry by its mode (R338, R339, R344). -/
def Pass1.resolveOp (p : Pass1) (enclosing : Option Ident) (pos line : Nat) (m : Mnemonic) (md : Mode)
    (arg : List Char) : Except AsmError Resolved :=
  match md with
  | .imp | .acc => .ok (.op line m md .none)
  | .imm =>
    match sumTerms (terms (arg.drop 1)) with
    | some v => .ok (.op line m md (.imm v))
    | none => .error ⟨line, .malformedExpression⟩
  | .zp | .abs =>
    match keyOf arg with
    | some k => .ok (.op line m md (.key k))
    | none => .error ⟨line, .malformedExpression⟩
  | .rel =>
    match p.labelOf enclosing pos arg with
    | .ok l => .ok (.jump line m l)
    | .error c => .error ⟨line, c⟩

/-- The enclosing global label after an entry (R338). -/
def enclosingAfter (enclosing : Option Ident) : Entry → Option Ident
  | .label (.global id) => some id
  | .label (.scoped _ _) => enclosing
  | .label (.anon _) => enclosing
  | .op _ _ _ _ => enclosing

/-- Pass 2 over the entries from position `pos` on (R338). -/
def Pass1.resolveFrom (p : Pass1) (enclosing : Option Ident) (pos : Nat) :
    List Entry → Except AsmError (List Resolved)
  | [] => .ok []
  | e :: es =>
    let here : Except AsmError Resolved :=
      match e with
      | .label l => .ok (.label l)
      | .op line m md arg => p.resolveOp enclosing pos line m md arg
    match here with
    | .error err => .error err
    | .ok r =>
      match p.resolveFrom (enclosingAfter enclosing e) (pos + 1) es with
      | .ok rs => .ok (r :: rs)
      | .error err => .error err

/-- Pass 2 (R338). -/
def pass2 (p : Pass1) : Except AsmError (List Resolved) := p.resolveFrom none 0 p.entries

/-- The compact map: each label's index is the number of instruction entries before it (R345). -/
def compactFrom (index : Nat) : List Resolved → List (LabelKey × Nat)
  | [] => []
  | .label l :: rs => (l, index) :: compactFrom index rs
  | .op _ _ _ _ :: rs => compactFrom (index + 1) rs
  | .jump _ _ _ :: rs => compactFrom (index + 1) rs

/-- A record of an entry. -/
def recordOf (line : Nat) (m : Mnemonic) (md : Mode) (operand : RawOperand) : Except AsmError Record :=
  match tagOf m md with
  | some tag => .ok ⟨line, ⟨tag, operand⟩⟩
  | none => .error ⟨line, .illegalMode⟩

/-- Removes the placeholders and replaces each label by its index (R345). -/
def emit (map : List (LabelKey × Nat)) : List Resolved → Except AsmError Program
  | [] => .ok []
  | .label _ :: rs => emit map rs
  | .op line m md operand :: rs =>
    match recordOf line m md operand, emit map rs with
    | .ok r, .ok p => .ok (r :: p)
    | .error e, _ => .error e
    | _, .error e => .error e
  | .jump line m l :: rs =>
    match map.find? fun e => e.1 == l with
    | none => .error ⟨line, .unresolvedLabel⟩
    | some e =>
      match recordOf line m .rel (.index e.2), emit map rs with
      | .ok r, .ok p => .ok (r :: p)
      | .error e, _ => .error e
      | _, .error e => .error e

/-- Refuses a Program of more than 65535 records, at the line of the first record too many. That an assembled Program is
always well-formed is the rule (R307; 70_reset_and_hazards.md R806); that it is this error that keeps it so is the model's
(DESIGN CHOICE, entry 18). -/
def withinLength (p : Program) : Except AsmError Program :=
  match p[maxProgramLength]? with
  | none => .ok p
  | some r => .error ⟨r.line, .programTooLong⟩

/-- Pass 3, with its check that the compact map has as many entries as the label table (R345). -/
def pass3 (p : Pass1) (rs : List Resolved) : Except AsmError Program :=
  let map := compactFrom 0 rs
  if map.length = p.table.length then emit map rs else .error ⟨0, .unresolvedLabel⟩

/-- `Assemble(sourceText)`: a Program, which is well-formed (70_reset_and_hazards.md R806), or the first error; no partial
Program (R330). A source of more than 65535 instructions is refused (DESIGN CHOICE, entry 18). -/
def assemble (src : List Char) : Except AsmError Program :=
  match pass1 src with
  | .error e => .error e
  | .ok p =>
    match pass2 p with
    | .error e => .error e
    | .ok rs =>
      match pass3 p rs with
      | .error e => .error e
      | .ok q => withinLength q

end Sys2Proof.Machine
end

