-- ==== Sys2Proof/Machine/HostInterface.lean ====
section
/-! DEFINITION. The host's operations: LoadProgram, NewRun, SeedVar, SetBranchSelector, Run and the read-back
(70_reset_and_hazards.md R800 to R816). -/

namespace Sys2Proof.Machine

/-- Why a host operation is refused. -/
inductive HostRefusal where
  /-- `LoadError`: the Program is not well-formed (R806; 30_encoding.md R307). -/
  | loadError
  /-- `SeedVar` with a reserved key, or with a key that is none of 20_memory.md R201 (R804). -/
  | keyRefused
  /-- `SeedVar` or `SetBranchSelector` once the run has begun, or a second `Run` (R804, R807, R815). -/
  | alreadyRun
  /-- A read-back before the run has ended (R814). -/
  | notEnded
  deriving DecidableEq, Repr

/-- `LoadProgram` (R806). -/
def loadProgram (p : Program) : Except HostRefusal Program :=
  if wellFormedProgram p then .ok p else .error .loadError

/-- `NewRun(program)`: an instance in the reset state (R800). The reserved variables' names come with it (entry 3). -/
def newRun (cfg : Config) (p : Program) : State := { State.reset with program := p, cfg := cfg }

/-- Between `NewRun` and `Run`: the run is not over and no tick has passed (20_memory.md R225; entry 10). -/
def State.fresh (s : State) : Bool := decide (s.status = .ready ∧ s.ticks = 0)

/-- `SeedVar(k, v)`, for any integer `v` (R804). -/
def seedVar (k : Key) (v : Int) (s : State) : Except HostRefusal State :=
  if s.fresh then
    if k.wf && !s.reserved k then .ok { s with vars := s.vars.write k v } else .error .keyRefused
  else .error .alreadyRun

/-- The names of the eight conditions (R805). -/
def condNames : List (String × Cond) :=
  [("bcc", .bcc), ("bcs", .bcs), ("beq", .beq), ("bne", .bne), ("bmi", .bmi), ("bpl", .bpl), ("bvc", .bvc),
   ("bvs", .bvs)]

/-- The selector a name stands for: one of the eight, or `Invalid` for any other value (R805). -/
def selectorOf (name : List Char) : Selector :=
  match condNames.find? fun e => e.1.toList == name with
  | some e => .cond e.2
  | none => .invalid

/-- `SetBranchSelector(name)` (R805, R815). -/
def setBranchSelector (name : List Char) (s : State) : Except HostRefusal State :=
  if s.fresh then .ok { s with bsel := selectorOf name } else .error .alreadyRun

/-- The body of the run loop: one tick of the record at `pc` (R808). -/
def tickOf (s : State) : State :=
  match s.program[s.pc]? with
  | none => s
  | some r =>
    match decode r.raw with
    | .error _ => s.takeFault ⟨.illegalInstruction, none⟩
    | .ok i =>
      match exec i s with
      | .next t => t
      | .fault _ => s
      | .refused _ => s

/-- What follows the loop: Incomplete where `pc` is still in range, Completed otherwise (R808, R810, R811). -/
def endOfRun (s : State) : State :=
  { s with status := if s.pc < s.programSize then .incomplete else .completed }

/-- The loop of R808, with as much fuel as ticks may pass. -/
def runLoop : Nat → State → State
  | 0, s => endOfRun s
  | fuel + 1, s =>
    if s.pc < s.programSize ∧ s.ticks < s.budget then
      if (tickOf s).status = .ready then runLoop fuel (tickOf s) else tickOf s
    else endOfRun s

/-- `Run(instance, budget)`: runs the instance to its end (R807, R808, R815). -/
def runInstance (budget : Nat) (s : State) : Except HostRefusal State :=
  if s.status = .ready then .ok (runLoop (budget - s.ticks) { s with budget := budget }) else .error .alreadyRun

/-- What `Run` returns to the host: success exactly when the run completed (R808, R812). -/
def State.succeeded (s : State) : Bool := decide (s.status = .completed)

/-- What the host may read after the run, beside the slots (R814). -/
structure HostView where
  status : Status
  btaken : BranchTaken
  a : Byte
  x : Byte
  y : Byte
  flags : Flags
  pc : Nat
  deriving DecidableEq, Repr

/-- The read-back of everything but the slots (R814). -/
def readBack (s : State) : Except HostRefusal HostView :=
  if s.status = .ready then .error .notEnded else .ok ⟨s.status, s.btaken, s.a, s.x, s.y, s.flags, s.pc⟩

/-- The read-back of one slot, an absent one reading 0 (R814). -/
def readBackVar (k : Key) (s : State) : Except HostRefusal Int :=
  if s.status = .ready then .error .notEnded else .ok (s.vars.read k)

/-- Seeds several variables in turn. -/
def seedAll : List (Key × Int) → State → Except HostRefusal State
  | [], s => .ok s
  | e :: es, s =>
    match seedVar e.1 e.2 s with
    | .ok t => seedAll es t
    | .error r => .error r

/-- The host's whole sequence: load, create, seed, set the selector if a name is given, run (R816). -/
def hostRun (cfg : Config) (p : Program) (seeds : List (Key × Int)) (selector : Option (List Char)) (budget : Nat) :
    Except HostRefusal State := do
  let admitted ← loadProgram p
  let seeded ← seedAll seeds (newRun cfg admitted)
  let chosen ← match selector with
    | none => .ok seeded
    | some name => setBranchSelector name seeded
  runInstance budget chosen

end Sys2Proof.Machine
end

