-- ==== Sys2Proof/Safety.lean ====
section
/-! DEFINITION. What statements about the machine are said in: the invariant of a run, and the shapes that the rules of
files 40 to 48 share (00_scope.md R22). -/

namespace Sys2Proof

open Machine

/-! ### The invariant -/

/-- The invariant of a run. It holds of every fresh instance and every step keeps it. -/
structure Inv (s : State) : Prop where
  /-- The store has its canonical form (entry 6). -/
  varsCanonical : s.vars.wf = true
  /-- Every slot has a key of 20_memory.md R201, and no reserved key has a slot (R207). -/
  varsKeys : ∀ e ∈ s.vars, e.1.wf = true ∧ s.reserved e.1 = false
  /-- The Program is well-formed (30_encoding.md R307; 70_reset_and_hazards.md R806). -/
  programAdmitted : wellFormedProgram s.program = true
  /-- `pc` is always in 0..65535 (10_state.md R106). -/
  pcInRange : s.pc ≤ 65535
  /-- `TICKS` never exceeds the budget (60_exceptions.md R721). -/
  ticksInBudget : s.ticks ≤ s.budget
  /-- In a run of T ticks the depth is at most 255 + 2*T (10_state.md R125). -/
  depthBounded : s.stack.length ≤ 255 + 2 * s.ticks
  /-- A completed run has left the valid range (70_reset_and_hazards.md R810). -/
  completedOutside : s.status = .completed → s.programSize ≤ s.pc
  /-- An incomplete run has used its budget with `pc` still in range (70_reset_and_hazards.md R811). -/
  incompleteInside : s.status = .incomplete → s.pc < s.programSize ∧ s.ticks = s.budget
  /-- A faulted run stands at the faulting record, in a tick that was allowed to start (60_exceptions.md R703, R716), and
  `IllegalInstruction` is unreachable (R712). -/
  faultedAt : ∀ kind info, s.status = .faulted kind info →
    info.pcFault = s.pc ∧ s.pc < s.programSize ∧ s.ticks < s.budget ∧ kind ≠ .illegalInstruction
  /-- `BTAKEN` is present only if the Program holds a `branch` record (10_state.md R118). -/
  branchPresent : s.btaken ≠ .absent → ∃ r ∈ s.program, r.raw.tag = 0x02#8

/-! ### Faults and completions -/

/-- At `s` the instruction takes the fault: `STATUS` alone changes (60_exceptions.md R701, R703). -/
def FaultsWith (i : Instr) (s : State) (kind : FaultKind) (key : Option Key) : Prop :=
  exec i s = .next { s with status := .faulted kind ⟨s.pc, s.lineAtPc, key⟩ }

/-- From `s` to `t` one tick passed, and `pc` moved to the next record. Of the rest nothing changed but, it may be, A, X, Y
and the flags: in particular every slot reads as before, and so does the stack. -/
def OnlyRegisters (s t : State) : Prop :=
  t = { s with a := t.a, x := t.x, y := t.y, flags := t.flags, pc := s.pc + 1, ticks := s.ticks + 1 } ∧
  ∀ k, t.vars.find? k = s.vars.find? k

/-- From `s` to `t` one tick passed, `pc` moved to the next record, the slot of `k` now holds the byte `b`, and every other
slot reads as before. Of the rest nothing changed but, it may be, the flags. -/
def OnlySlot (k : Key) (b : Byte) (s t : State) : Prop :=
  t = { s with vars := t.vars, flags := t.flags, pc := s.pc + 1, ticks := s.ticks + 1 } ∧
  t.vars.find? k = some (b.toNat : Int) ∧ ∀ j, j ≠ k → t.vars.find? j = s.vars.find? j

/-- From `s` to `t` one tick passed and the flags Z and N describe `b`; C and V did not change (00_scope.md R16). -/
def DescribesNZ (b : Byte) (s t : State) : Prop :=
  (t.flags.z = true ↔ b.toNat = 0) ∧ (t.flags.n = true ↔ 128 ≤ b.toNat) ∧ t.flags.c = s.flags.c ∧ t.flags.v = s.flags.v

/-! ### The operand forms of a rule -/

/-- The variable forms of a rule (ZP and ABS): their tags, what holds of them on a key that is not reserved, whose slot reads
as a byte (30_encoding.md R324), and the fault on a reserved key (60_exceptions.md R710). -/
def VarForms (s : State) (zp abs : Key → Instr) (zpTag absTag : Byte) (P : Instr → Key → Byte → Prop) : Prop :=
  ∀ k,
    (k.wf = true → decode ⟨zpTag, .key k⟩ = .ok (zp k) ∧ decode ⟨absTag, .key k⟩ = .ok (abs k)) ∧
    (s.reserved k = false → P (zp k) k (fold (s.vars.read k)) ∧ P (abs k) k (fold (s.vars.read k))) ∧
    (s.reserved k = true →
      FaultsWith (zp k) s .reservedKeyAccess (some k) ∧ FaultsWith (abs k) s .reservedKeyAccess (some k))

/-- The data forms of a reading rule (IMM, ZP and ABS). An immediate is any integer, folded (30_encoding.md R323). -/
def ReadForms (s : State) (imm : Int → Instr) (zp abs : Key → Instr) (immTag zpTag absTag : Byte)
    (P : Instr → Byte → Prop) : Prop :=
  (∀ v : Int, decode ⟨immTag, .imm v⟩ = .ok (imm v) ∧ P (imm v) (fold v)) ∧
  VarForms s zp abs zpTag absTag (fun i _ m => P i m)

/-- The forms of a read-modify-write rule (ACC, ZP and ABS): `P m r f` says of a byte `m` read, a byte `r` written back to
the same place and the flags `f` after it what the rule says (42_shift_rotate.md R440). -/
def ModifyForms (s : State) (acc : Instr) (zp abs : Key → Instr) (accTag zpTag absTag : Byte)
    (P : Byte → Byte → Flags → Prop) : Prop :=
  (decode ⟨accTag, .none⟩ = .ok acc ∧
    ∃ t, exec acc s = .next t ∧ OnlyRegisters s t ∧ t.x = s.x ∧ t.y = s.y ∧ P s.a t.a t.flags) ∧
  VarForms s zp abs zpTag absTag (fun i k m => ∃ t r, exec i s = .next t ∧ OnlySlot k r s t ∧ P m r t.flags)

/-- A rule of an Implicit instruction: its tag, and the state it leaves (30_encoding.md R320). -/
def ImplicitForm (s : State) (i : Instr) (tag : Byte) (P : State → Prop) : Prop :=
  decode ⟨tag, .none⟩ = .ok i ∧ ∃ t, exec i s = .next t ∧ P t

/-- A rule of a Relative instruction: its tag, and the state it leaves for every target (30_encoding.md R326). -/
def RelativeForm (s : State) (mk : Nat → Instr) (tag : Byte) (P : Nat → State → Prop) : Prop :=
  ∀ target, decode ⟨tag, .index target⟩ = .ok (mk target) ∧ ∃ t, exec (mk target) s = .next t ∧ P target t

end Sys2Proof
end

