-- ==== Sys2Proof/Certificates/Slice0/Obligations.lean ====
section
/-! DEFINITION. The statements for the provers. Each docstring names the rules of spec/ that the statement formalises.
In every statement `t = { s with … }` is the frame too: a field that is not named is unchanged. -/

open Sys2Proof Sys2Proof.Machine

/-! ### 40 to 43: arithmetic, logic, shifts, compares -/

/-- R400, R401: `adc` in its three forms, from the exact sum `r`. -/
def Obligations.AdcAddsOperandAndCarry : Prop :=
  ∀ s : State, ReadForms s .adcImm .adcZp .adcAbs 0x69#8 0x65#8 0x6D#8 fun i m =>
    ∃ t, exec i s = .next t ∧ OnlyRegisters s t ∧ t.x = s.x ∧ t.y = s.y ∧
      (let r := s.a.toNat + m.toNat + b2i s.flags.c
       t.a.toNat = r % 256 ∧
       (t.flags.c = true ↔ 255 < r) ∧
       (t.flags.v = true ↔ (s.a.toNat ^^^ r) &&& (m.toNat ^^^ r) &&& 0x80 ≠ 0) ∧
       (t.flags.z = true ↔ t.a.toNat = 0) ∧ (t.flags.n = true ↔ 127 < t.a.toNat))

/-- R402: `sbc` in its three forms adds the one's complement of the operand by the same core. -/
def Obligations.SbcAddsComplementAndCarry : Prop :=
  ∀ s : State, ReadForms s .sbcImm .sbcZp .sbcAbs 0xE9#8 0xE5#8 0xED#8 fun i m =>
    ∃ t, exec i s = .next t ∧ OnlyRegisters s t ∧ t.x = s.x ∧ t.y = s.y ∧
      (let r := s.a.toNat + (255 - m.toNat) + b2i s.flags.c
       t.a.toNat = r % 256 ∧
       (t.flags.c = true ↔ 255 < r) ∧
       (t.flags.v = true ↔ (s.a.toNat ^^^ r) &&& ((255 - m.toNat) ^^^ r) &&& 0x80 ≠ 0) ∧
       (t.flags.z = true ↔ t.a.toNat = 0) ∧ (t.flags.n = true ↔ 127 < t.a.toNat))

/-- R403: the arithmetic laws of `adc` and `sbc`, with signed overflow as a range condition. `toInt` is the rule's `s(v)`. -/
def Obligations.AddAndSubtractArithmeticLaws : Prop :=
  ∀ s : State,
    (ReadForms s .adcImm .adcZp .adcAbs 0x69#8 0x65#8 0x6D#8 fun i m =>
      ∃ t, exec i s = .next t ∧
        t.a.toNat = (s.a.toNat + m.toNat + b2i s.flags.c) % 256 ∧
        (t.flags.c = true ↔ 256 ≤ s.a.toNat + m.toNat + b2i s.flags.c) ∧
        (t.flags.v = true ↔ ¬ (-128 ≤ s.a.toInt + m.toInt + b2i s.flags.c ∧
          s.a.toInt + m.toInt + b2i s.flags.c ≤ 127)) ∧
        (t.flags.v = true ↔ s.a.getLsbD 7 = m.getLsbD 7 ∧ t.a.getLsbD 7 ≠ s.a.getLsbD 7) ∧
        (t.flags.z = true ↔ t.a.toNat = 0) ∧ (t.flags.n = true ↔ 128 ≤ t.a.toNat)) ∧
    (ReadForms s .sbcImm .sbcZp .sbcAbs 0xE9#8 0xE5#8 0xED#8 fun i m =>
      ∃ t, exec i s = .next t ∧
        (t.a.toNat : Int) = (s.a.toNat - m.toNat - (1 - b2i s.flags.c) : Int) % 256 ∧
        (t.flags.c = true ↔ (0 : Int) ≤ s.a.toNat - m.toNat - (1 - b2i s.flags.c)) ∧
        (t.flags.v = true ↔ ¬ (-128 ≤ s.a.toInt - m.toInt - (1 - b2i s.flags.c) ∧
          s.a.toInt - m.toInt - (1 - b2i s.flags.c) ≤ 127)) ∧
        (t.flags.z = true ↔ t.a.toNat = 0) ∧ (t.flags.n = true ↔ 128 ≤ t.a.toNat))

/-- R404: the overflow formula gives the same whether the sum is folded first or not. -/
def Obligations.OverflowSameOnFoldedSum : Prop :=
  ∀ (a m : Byte) (c : Bool),
    let r := a.toNat + m.toNat + b2i c
    Nat.testBit r 7 = (fold r).getLsbD 7 ∧
    ((a.toNat ^^^ r) &&& (m.toNat ^^^ r) &&& 0x80 ≠ 0 ↔
      (a.toNat ^^^ (fold r).toNat) &&& (m.toNat ^^^ (fold r).toNat) &&& 0x80 ≠ 0)

/-- R420, R421, R422: and, ora, eor combine the operand into A; Z and N describe it, C and V are unchanged. -/
def Obligations.LogicCombinesOperandIntoA : Prop :=
  ∀ s : State,
    (ReadForms s .andImm .andZp .andAbs 0x29#8 0x25#8 0x2D#8 fun i m =>
      ∃ t, exec i s = .next t ∧ OnlyRegisters s t ∧ t.x = s.x ∧ t.y = s.y ∧ t.a = s.a &&& m ∧ DescribesNZ t.a s t) ∧
    (ReadForms s .oraImm .oraZp .oraAbs 0x09#8 0x05#8 0x0D#8 fun i m =>
      ∃ t, exec i s = .next t ∧ OnlyRegisters s t ∧ t.x = s.x ∧ t.y = s.y ∧ t.a = s.a ||| m ∧ DescribesNZ t.a s t) ∧
    (ReadForms s .eorImm .eorZp .eorAbs 0x49#8 0x45#8 0x4D#8 fun i m =>
      ∃ t, exec i s = .next t ∧ OnlyRegisters s t ∧ t.x = s.x ∧ t.y = s.y ∧ t.a = s.a ^^^ m ∧ DescribesNZ t.a s t)

/-- R423 (the 6502 meaning is the spec's own decision, 92_eei_decisions.md D7): `bit` writes Z from `A & M` and N and V from bits 7 and 6 of the operand; A and C are unchanged. -/
def Obligations.BitTestsOperandOnly : Prop :=
  ∀ s : State, VarForms s .bitZp .bitAbs 0x24#8 0x2C#8 fun i _ m =>
    ∃ t, exec i s = .next t ∧ OnlyRegisters s t ∧ t.a = s.a ∧ t.x = s.x ∧ t.y = s.y ∧
      (t.flags.z = true ↔ s.a &&& m = 0) ∧ t.flags.n = m.getLsbD 7 ∧ t.flags.v = m.getLsbD 6 ∧ t.flags.c = s.flags.c

/-- R440 to R444: the four shifts on A and on a slot, as arithmetic on the 9 bits made of the carry and the byte. -/
def Obligations.ShiftsMoveOneBitThroughCarry : Prop :=
  ∀ s : State,
    (ModifyForms s .aslAcc .aslZp .aslAbs 0x0A#8 0x06#8 0x0E#8 fun m r f =>
      r.toNat + 256 * b2i f.c = 2 * m.toNat ∧
      (f.z = true ↔ r.toNat = 0) ∧ (f.n = true ↔ 128 ≤ r.toNat) ∧ f.v = s.flags.v) ∧
    (ModifyForms s .lsrAcc .lsrZp .lsrAbs 0x4A#8 0x46#8 0x4E#8 fun m r f =>
      2 * r.toNat + b2i f.c = m.toNat ∧
      (f.z = true ↔ r.toNat = 0) ∧ f.n = false ∧ f.v = s.flags.v) ∧
    (ModifyForms s .rolAcc .rolZp .rolAbs 0x2A#8 0x26#8 0x2E#8 fun m r f =>
      r.toNat + 256 * b2i f.c = 2 * m.toNat + b2i s.flags.c ∧
      (f.z = true ↔ r.toNat = 0) ∧ (f.n = true ↔ 128 ≤ r.toNat) ∧ f.v = s.flags.v) ∧
    (ModifyForms s .rorAcc .rorZp .rorAbs 0x6A#8 0x66#8 0x6E#8 fun m r f =>
      2 * r.toNat + b2i f.c = m.toNat + 256 * b2i s.flags.c ∧
      (f.z = true ↔ r.toNat = 0) ∧ f.n = s.flags.c ∧ f.v = s.flags.v)

/-- R460 to R463: a compare writes C from the unsigned comparison, and Z and N from the folded difference; no register, no
slot and not V. -/
def Obligations.ComparesOrderUnsignedBytes : Prop :=
  ∀ s : State,
    let compares (r : Byte) (i : Instr) (m : Byte) : Prop :=
      ∃ t, exec i s = .next t ∧ OnlyRegisters s t ∧ t.a = s.a ∧ t.x = s.x ∧ t.y = s.y ∧
        (t.flags.c = true ↔ m.toNat ≤ r.toNat) ∧ (t.flags.z = true ↔ r = m) ∧
        (t.flags.n = true ↔ 128 ≤ ((r.toNat : Int) - m.toNat) % 256) ∧ t.flags.v = s.flags.v
    ReadForms s .cmpImm .cmpZp .cmpAbs 0xC9#8 0xC5#8 0xCD#8 (compares s.a) ∧
    ReadForms s .cpxImm .cpxZp .cpxAbs 0xE0#8 0xE4#8 0xEC#8 (compares s.x) ∧
    ReadForms s .cpyImm .cpyZp .cpyAbs 0xC0#8 0xC4#8 0xCC#8 (compares s.y)

/-! ### 44: increment and decrement -/

/-- R480, R481: inc and dec replace the slot by the folded sum or difference; C and V are unchanged. -/
def Obligations.IncDecReplaceSlot : Prop :=
  ∀ s : State,
    (VarForms s .incZp .incAbs 0xE6#8 0xEE#8 fun i k m =>
      ∃ t r, exec i s = .next t ∧ OnlySlot k r s t ∧ r.toNat = (m.toNat + 1) % 256 ∧ DescribesNZ r s t) ∧
    (VarForms s .decZp .decAbs 0xC6#8 0xCE#8 fun i k m =>
      ∃ t r, exec i s = .next t ∧ OnlySlot k r s t ∧ (r.toNat : Int) = ((m.toNat : Int) - 1) % 256 ∧ DescribesNZ r s t)

/-- R482 to R485: inx, iny, dex and dey step their register, folded; C and V are unchanged. -/
def Obligations.IncDecStepIndexRegister : Prop :=
  ∀ s : State,
    (ImplicitForm s .inx 0xE8#8 fun t => OnlyRegisters s t ∧ t.a = s.a ∧ t.y = s.y ∧
      t.x.toNat = (s.x.toNat + 1) % 256 ∧ DescribesNZ t.x s t) ∧
    (ImplicitForm s .iny 0xC8#8 fun t => OnlyRegisters s t ∧ t.a = s.a ∧ t.x = s.x ∧
      t.y.toNat = (s.y.toNat + 1) % 256 ∧ DescribesNZ t.y s t) ∧
    (ImplicitForm s .dex 0xCA#8 fun t => OnlyRegisters s t ∧ t.a = s.a ∧ t.y = s.y ∧
      (t.x.toNat : Int) = ((s.x.toNat : Int) - 1) % 256 ∧ DescribesNZ t.x s t) ∧
    (ImplicitForm s .dey 0x88#8 fun t => OnlyRegisters s t ∧ t.a = s.a ∧ t.x = s.x ∧
      (t.y.toNat : Int) = ((s.y.toNat : Int) - 1) % 256 ∧ DescribesNZ t.y s t)

/-! ### 45: control transfer -/

/-- R500 to R508: each conditional branch goes to its target exactly when its condition holds, and otherwise to the next
record; nothing else changes. -/
def Obligations.BranchesFollowTheirFlag : Prop :=
  ∀ s : State,
    let goes (taken : Prop) (target : Nat) (t : State) : Prop :=
      (taken → t = { s with pc := target, ticks := s.ticks + 1 }) ∧
      (¬ taken → t = { s with pc := s.pc + 1, ticks := s.ticks + 1 })
    RelativeForm s .bcc 0x90#8 (goes (s.flags.c = false)) ∧
    RelativeForm s .bcs 0xB0#8 (goes (s.flags.c = true)) ∧
    RelativeForm s .beq 0xF0#8 (goes (s.flags.z = true)) ∧
    RelativeForm s .bne 0xD0#8 (goes (s.flags.z = false)) ∧
    RelativeForm s .bmi 0x30#8 (goes (s.flags.n = true)) ∧
    RelativeForm s .bpl 0x10#8 (goes (s.flags.n = false)) ∧
    RelativeForm s .bvc 0x50#8 (goes (s.flags.v = false)) ∧
    RelativeForm s .bvs 0x70#8 (goes (s.flags.v = true))

/-- R509: `jmp` sets pc to its target. -/
def Obligations.JmpGoesToTarget : Prop :=
  ∀ s : State, RelativeForm s .jmp 0x4C#8 fun target t => t = { s with pc := target, ticks := s.ticks + 1 }

/-- R510: `jsr` pushes the high byte, then the low byte of the index of the next record, and goes to its target. -/
def Obligations.JsrPushesReturnIndex : Prop :=
  ∀ s : State, RelativeForm s .jsr 0x20#8 fun target t =>
    ∃ hi lo : Byte, hi.toNat = (s.pc + 1) / 256 % 256 ∧ lo.toNat = (s.pc + 1) % 256 ∧
      t = { s with stack := s.stack ++ [hi, lo], pc := target, ticks := s.ticks + 1 }

/-- R511: `rts` with fewer than two bytes leaves the stack and sets pc to N (the spec's own choice for "past the end",
92_eei_decisions.md D11, item I-15; entry 12); otherwise it pops the low byte, then the high byte, and goes to the index they make. -/
def Obligations.RtsPopsReturnIndex : Prop :=
  ∀ s : State,
    ImplicitForm s .rts 0x60#8 fun t =>
      (s.stack.length < 2 → t = { s with pc := s.program.length, ticks := s.ticks + 1 }) ∧
      (∀ (rest : List Byte) (hi lo : Byte), s.stack = rest ++ [hi, lo] →
        t = { s with stack := rest, pc := hi.toNat * 256 + lo.toNat, ticks := s.ticks + 1 })

/-- R512 (that pc is exactly N after an outermost return is the spec's own choice, 92_eei_decisions.md D11, which a claim need
not rest on, item I-15; entry 12): `rti` takes the four flags from the popped byte, 0 where the stack is empty, and then returns as `rts` does on the
remaining stack. -/
def Obligations.RtiPopsFlagsThenReturns : Prop :=
  ∀ s : State,
    ImplicitForm s .rti 0x40#8 fun t =>
      (s.stack = [] → t = { s with flags := Flags.clear, pc := s.program.length, ticks := s.ticks + 1 }) ∧
      (∀ (rest : List Byte) (b : Byte), s.stack = rest ++ [b] →
        t.flags = ⟨b.getLsbD 0, b.getLsbD 1, b.getLsbD 6, b.getLsbD 7⟩ ∧
        (rest.length < 2 →
          t = { s with flags := t.flags, stack := rest, pc := s.program.length, ticks := s.ticks + 1 }) ∧
        (∀ (below : List Byte) (hi lo : Byte), rest = below ++ [hi, lo] →
          t = { s with
            flags := t.flags, stack := below, pc := hi.toNat * 256 + lo.toNat, ticks := s.ticks + 1 }))

/-- R510, R511, R513: from an index whose successor is one (R106), `jsr` and then `rts` come back to the next record with
the stack as it was. -/
def Obligations.RtsUndoesJsr : Prop :=
  ∀ (s : State) (target : Nat), s.pc + 1 ≤ 65535 →
    ∃ u, exec (.jsr target) s = .next u ∧ u.pc = target ∧
      exec .rts u = .next { s with pc := s.pc + 1, ticks := s.ticks + 2 }

/-- R500, R520: `branch` follows the condition its selector names, bcc where it is unset, and records whether it held, even where
the target is the next record; an invalid selector faults before anything changes. -/
def Obligations.BranchFollowsSelector : Prop :=
  ∀ s : State,
    (∀ target, decode ⟨0x02#8, .index target⟩ = .ok (.branch target)) ∧
    ([Cond.bcc, .bcs, .beq, .bne, .bmi, .bpl, .bvc, .bvs].map fun c => c.holds s.flags) =
      [!s.flags.c, s.flags.c, s.flags.z, !s.flags.z, s.flags.n, !s.flags.n, !s.flags.v, s.flags.v] ∧
    (s.bsel = .invalid → ∀ target, FaultsWith (.branch target) s .invalidBranchSelector none) ∧
    (∀ (c : Cond) (target : Nat), s.bsel = .cond c ∨ (s.bsel = .unset ∧ c = .bcc) →
      exec (.branch target) s = .next { s with
        pc := if c.holds s.flags then target else s.pc + 1
        btaken := .taken (c.holds s.flags)
        ticks := s.ticks + 1 })

/-! ### 46: stack and transfers -/

/-- R540, R541: `pha` pushes A; `pla` pulls A, 0 where the stack is empty, and sets Z and N from it (that it sets them is the
spec's own decision, 92_eei_decisions.md D8). -/
def Obligations.PushAndPullA : Prop :=
  ∀ s : State,
    (ImplicitForm s .pha 0x48#8 fun t =>
      t = { s with stack := s.stack ++ [s.a], pc := s.pc + 1, ticks := s.ticks + 1 }) ∧
    (ImplicitForm s .pla 0x68#8 fun t =>
      (∀ (rest : List Byte) (b : Byte), (s.stack = rest ++ [b] ∨ (s.stack = [] ∧ rest = [] ∧ b = 0)) →
        t = { s with a := b, flags := t.flags, stack := rest, pc := s.pc + 1, ticks := s.ticks + 1 } ∧
        DescribesNZ b s t))

/-- R542, R543: `php` pushes N, V, Z and C in bits 7, 6, 1 and 0 with 0 in bits 5 to 2; `plp` pulls the four flags, all clear
where the stack is empty, and ignores bits 5 to 2. -/
def Obligations.PushAndPullFlags : Prop :=
  ∀ s : State,
    (ImplicitForm s .php 0x08#8 fun t =>
      ∃ b : Byte, b.toNat = 128 * b2i s.flags.n + 64 * b2i s.flags.v + 2 * b2i s.flags.z + b2i s.flags.c ∧
        t = { s with stack := s.stack ++ [b], pc := s.pc + 1, ticks := s.ticks + 1 }) ∧
    (ImplicitForm s .plp 0x28#8 fun t =>
      (∀ (rest : List Byte) (b : Byte), (s.stack = rest ++ [b] ∨ (s.stack = [] ∧ rest = [] ∧ b = 0)) →
        t = { s with
          flags := ⟨b.getLsbD 0, b.getLsbD 1, b.getLsbD 6, b.getLsbD 7⟩
          stack := rest, pc := s.pc + 1, ticks := s.ticks + 1 }))

/-- R544 to R547: the four transfers copy one register to another and set Z and N from it. -/
def Obligations.TransfersCopyRegister : Prop :=
  ∀ s : State,
    (ImplicitForm s .tax 0xAA#8 fun t =>
      OnlyRegisters s t ∧ t.a = s.a ∧ t.x = s.a ∧ t.y = s.y ∧ DescribesNZ s.a s t) ∧
    (ImplicitForm s .tay 0xA8#8 fun t =>
      OnlyRegisters s t ∧ t.a = s.a ∧ t.x = s.x ∧ t.y = s.a ∧ DescribesNZ s.a s t) ∧
    (ImplicitForm s .txa 0x8A#8 fun t =>
      OnlyRegisters s t ∧ t.a = s.x ∧ t.x = s.x ∧ t.y = s.y ∧ DescribesNZ s.x s t) ∧
    (ImplicitForm s .tya 0x98#8 fun t =>
      OnlyRegisters s t ∧ t.a = s.y ∧ t.x = s.x ∧ t.y = s.y ∧ DescribesNZ s.y s t)

/-- R550, R551 (Z and N after `tsx`, and how `txs` pads, are the spec's own decisions, 92_eei_decisions.md D8, D13): `tsx`
reports `255 - depth` folded and sets Z and N from it; `txs` keeps the bottom X entries, or pads with
zero bytes on top to X entries, and changes no flag. -/
def Obligations.StackPointerEmulation : Prop :=
  ∀ s : State,
    (ImplicitForm s .tsx 0xBA#8 fun t =>
      OnlyRegisters s t ∧ t.a = s.a ∧ t.y = s.y ∧ (t.x.toNat : Int) = (255 - (s.stack.length : Int)) % 256 ∧
      DescribesNZ t.x s t) ∧
    (ImplicitForm s .txs 0x9A#8 fun t =>
      t = { s with stack := t.stack, pc := s.pc + 1, ticks := s.ticks + 1 } ∧ t.stack.length = s.x.toNat ∧
      (∀ j, j < s.x.toNat → t.stack[j]? = some (s.stack[j]?.getD 0)))

/-- R124 (90_conflicts.md C5): `tsx` then `txs` does not restore the stack: from depth d it makes the depth `255 - d`,
folded. -/
def Obligations.TsxThenTxsReflectsDepth : Prop :=
  ∀ s : State, ∃ u t, exec .tsx s = .next u ∧ exec .txs u = .next t ∧
    (t.stack.length : Int) = (255 - (s.stack.length : Int)) % 256 ∧
    (s.stack.length ≤ 255 → t.stack.length ≠ s.stack.length)

/-! ### 47 and 48: flags, no-ops, loads and stores -/

/-- R580, R581, R582: clc, sec and clv write one flag each and nothing else. -/
def Obligations.FlagInstructionsWriteOneFlag : Prop :=
  ∀ s : State,
    (ImplicitForm s .clc 0x18#8 fun t =>
      t = { s with flags := { s.flags with c := false }, pc := s.pc + 1, ticks := s.ticks + 1 }) ∧
    (ImplicitForm s .sec 0x38#8 fun t =>
      t = { s with flags := { s.flags with c := true }, pc := s.pc + 1, ticks := s.ticks + 1 }) ∧
    (ImplicitForm s .clv 0xB8#8 fun t =>
      t = { s with flags := { s.flags with v := false }, pc := s.pc + 1, ticks := s.ticks + 1 })

/-- R583 to R587 (R316): cld, cli, sei, sed and nop change only pc and TICKS. -/
def Obligations.NoOpsOnlyAdvance : Prop :=
  ∀ s : State,
    let advances (t : State) : Prop := t = { s with pc := s.pc + 1, ticks := s.ticks + 1 }
    ImplicitForm s .cld 0xD8#8 advances ∧ ImplicitForm s .cli 0x58#8 advances ∧ ImplicitForm s .sei 0x78#8 advances ∧
    ImplicitForm s .sed 0xF8#8 advances ∧ ImplicitForm s .nop 0xEA#8 advances

/-- R600, R601, R602 (the spec's own decision, 92_eei_decisions.md D5): a load puts the operand's byte in its register and sets Z and N from it; no slot is created. -/
def Obligations.LoadsPutOperandInRegister : Prop :=
  ∀ s : State,
    (ReadForms s .ldaImm .ldaZp .ldaAbs 0xA9#8 0xA5#8 0xAD#8 fun i m =>
      ∃ t, exec i s = .next t ∧ OnlyRegisters s t ∧ t.a = m ∧ t.x = s.x ∧ t.y = s.y ∧ DescribesNZ m s t) ∧
    (ReadForms s .ldxImm .ldxZp .ldxAbs 0xA2#8 0xA6#8 0xAE#8 fun i m =>
      ∃ t, exec i s = .next t ∧ OnlyRegisters s t ∧ t.a = s.a ∧ t.x = m ∧ t.y = s.y ∧ DescribesNZ m s t) ∧
    (ReadForms s .ldyImm .ldyZp .ldyAbs 0xA0#8 0xA4#8 0xAC#8 fun i m =>
      ∃ t, exec i s = .next t ∧ OnlyRegisters s t ∧ t.a = s.a ∧ t.x = s.x ∧ t.y = m ∧ DescribesNZ m s t)

/-- R603, R604, R605 (the spec's own decision, 92_eei_decisions.md D6): a store puts its register's byte in the slot, creating it, and changes no flag and no other slot. -/
def Obligations.StoresPutRegisterInSlot : Prop :=
  ∀ s : State,
    let stores (b : Byte) (i : Instr) (k : Key) (_ : Byte) : Prop :=
      ∃ t, exec i s = .next t ∧ OnlySlot k b s t ∧ t.flags = s.flags
    VarForms s .staZp .staAbs 0x85#8 0x8D#8 (stores s.a) ∧
    VarForms s .stxZp .stxAbs 0x86#8 0x8E#8 (stores s.x) ∧
    VarForms s .styZp .styAbs 0x84#8 0x8C#8 (stores s.y)

/-! ### Rules over all instructions -/

/-- R324: ZP and ABS behave identically in every instruction. -/
def Obligations.ZeroPageEqualsAbsolute : Prop :=
  ∀ i j : Instr, i.mnemonic = j.mnemonic → i.operand = j.operand → i.mode = .zp → j.mode = .abs →
    ∀ s : State, exec i s = exec j s

/-- R111: no instruction changes a flag but those the rule lists for it. -/
def Obligations.FlagsChangeOnlyByListed : Prop :=
  ∀ (i : Instr) (s t : State), exec i s = .next t →
    (t.flags.c ≠ s.flags.c → i.mnemonic ∈ ([.adc, .sbc, .cmp, .cpx, .cpy, .asl, .lsr, .rol, .ror, .clc, .sec, .plp,
      .rti] : List Mnemonic)) ∧
    (t.flags.v ≠ s.flags.v → i.mnemonic ∈ ([.adc, .sbc, .bit, .clv, .plp, .rti] : List Mnemonic)) ∧
    (t.flags.z ≠ s.flags.z ∨ t.flags.n ≠ s.flags.n →
      i.mnemonic ∈ ([.adc, .sbc, .and, .ora, .eor, .bit, .cmp, .cpx, .cpy, .asl, .lsr, .rol, .ror, .inc, .dec, .inx,
        .iny, .dex, .dey, .lda, .ldx, .ldy, .pla, .tax, .tay, .txa, .tya, .tsx, .plp, .rti] : List Mnemonic))

/-- R103: no instruction writes A, X or Y but those the rule lists for it. -/
def Obligations.RegistersChangeOnlyByListed : Prop :=
  ∀ (i : Instr) (s t : State), exec i s = .next t →
    (t.a ≠ s.a → i.mnemonic ∈ ([.adc, .sbc, .and, .ora, .eor, .lda, .pla, .txa, .tya] : List Mnemonic) ∨
      (i.mnemonic ∈ ([.asl, .lsr, .rol, .ror] : List Mnemonic) ∧ i.mode = .acc)) ∧
    (t.x ≠ s.x → i.mnemonic ∈ ([.ldx, .inx, .dex, .tax, .tsx] : List Mnemonic)) ∧
    (t.y ≠ s.y → i.mnemonic ∈ ([.ldy, .iny, .dey, .tay] : List Mnemonic))

/-- R104: every instruction that changes A, X or Y sets Z and N from the written byte, where it completes. -/
def Obligations.RegisterWritesSetZeroAndNegative : Prop :=
  ∀ (i : Instr) (s t : State), exec i s = .next t →
    (t.a ≠ s.a → (t.flags.z = true ↔ t.a = 0) ∧ (t.flags.n = true ↔ 127 < t.a.toNat)) ∧
    (t.x ≠ s.x → (t.flags.z = true ↔ t.x = 0) ∧ (t.flags.n = true ↔ 127 < t.x.toNat)) ∧
    (t.y ≠ s.y → (t.flags.z = true ↔ t.y = 0) ∧ (t.flags.n = true ↔ 127 < t.y.toNat))

/-- R118, R120: only the listed instructions change the stack, and only `branch` touches `BTAKEN`. -/
def Obligations.StackAndRecordChangeOnlyByListed : Prop :=
  ∀ (i : Instr) (s t : State), exec i s = .next t →
    (t.stack ≠ s.stack → i.mnemonic ∈ ([.pha, .php, .pla, .plp, .jsr, .rts, .rti, .txs] : List Mnemonic)) ∧
    (t.btaken ≠ s.btaken → i.mnemonic = .branch)

/-- R204: a slot changes only under an instruction whose operand names it, its key is not reserved, and what it then holds is
a byte. -/
def Obligations.EngineStoresBytesToItsOperand : Prop :=
  ∀ (i : Instr) (s t : State) (k : Key), exec i s = .next t → t.vars.find? k ≠ s.vars.find? k →
    i.operand = .key k ∧ s.reserved k = false ∧
    i.mnemonic ∈ ([.sta, .stx, .sty, .asl, .lsr, .rol, .ror, .inc, .dec] : List Mnemonic) ∧
    ∃ b : Byte, t.vars.find? k = some (b.toNat : Int)

/-- R117, R220, R223: no step changes the Program, the selector, the budget or the names of the reserved variables. -/
def Obligations.StepKeepsProgramAndParameters : Prop :=
  ∀ s t : State, step s = .next t →
    t.program = s.program ∧ t.bsel = s.bsel ∧ t.budget = s.budget ∧ t.cfg = s.cfg

/-- R809: every instruction takes exactly one tick; one that faults takes none. -/
def Obligations.InstructionTakesOneTick : Prop :=
  ∀ (i : Instr) (s t : State), exec i s = .next t →
    (t.ticks = s.ticks + 1 ∧ t.status = s.status) ∨
    (t.ticks = s.ticks ∧ ∃ kind info, t.status = .faulted kind info)

/-! ### 60: faults -/

/-- R710 (a fault of the spec's own, 92_eei_decisions.md D15, D18): every instruction with a ZP or ABS operand faults on a reserved key and changes nothing else; with neither name set
no key is reserved. -/
def Obligations.ReservedKeyAlwaysFaults : Prop :=
  (∀ (i : Instr) (k : Key) (s : State), i.operand = .key k →
    s.cfg.branchTypeKey = some k ∨ s.cfg.branchTakenKey = some k → FaultsWith i s .reservedKeyAccess (some k)) ∧
  (∀ (s : State) (k : Key), s.cfg.branchTypeKey = none → s.cfg.branchTakenKey = none → s.reserved k = false)

/-- R711 (a fault of the spec's own, 92_eei_decisions.md D16, D18): `branch` faults where the selector is invalid, before pc or BTAKEN changes, and no other instruction raises that
fault. -/
def Obligations.InvalidSelectorFaultsBranchOnly : Prop :=
  (∀ (s : State) (target : Nat), s.bsel = .invalid → FaultsWith (.branch target) s .invalidBranchSelector none) ∧
  (∀ (i : Instr) (s t : State) (info : FaultInfo), s.status = .ready → exec i s = .next t →
    t.status = .faulted .invalidBranchSelector info → s.bsel = .invalid ∧ i.mnemonic = .branch)

/-- R712 (a fault of the spec's own, 92_eei_decisions.md D18; that a record with an ill-formed key is such a record is the
model's reading, entry 9): a fetched record that is no encoding of a well-formed instruction raises `IllegalInstruction` and is not executed;
in a well-formed Program no step raises it. -/
def Obligations.IllegalRecordFaultsUnexecuted : Prop :=
  (∀ (s : State) (r : Record), s.status = .ready → s.program[s.pc]? = some r → s.ticks < s.budget →
    (∀ i : Instr, i.wf = true → encode i ≠ r.raw) →
    step s = .next { s with status := .faulted .illegalInstruction ⟨s.pc, r.line, none⟩ }) ∧
  (∀ (s t : State) (info : FaultInfo), wellFormedProgram s.program = true → step s = .next t →
    t.status ≠ .faulted .illegalInstruction info)

/-- R703 (the spec's own decision, 92_eei_decisions.md D18, D40): faults are precise. A step that faults changes nothing but `STATUS`, which records the index of the faulting record
and its line. -/
def Obligations.FaultsArePrecise : Prop :=
  ∀ (s t : State) (kind : FaultKind) (info : FaultInfo), step s = .next t → t.status = .faulted kind info →
    t = { s with status := .faulted kind info } ∧ info.pcFault = s.pc ∧
    ∃ r, s.program[s.pc]? = some r ∧ info.line = r.line

/-- R702, R815: once a run has ended no further tick executes (that `step` then answers a fault named `runEnded` is the
model's choice, entry 7), and Run, SeedVar and SetBranchSelector are refused. -/
def Obligations.EndedRunExecutesNothing : Prop :=
  ∀ s : State, s.status ≠ .ready →
    step s = .fault .runEnded ∧
    (∀ budget, runInstance budget s = .error .alreadyRun) ∧
    (∀ k v, seedVar k v s = .error .alreadyRun) ∧
    (∀ name, setBranchSelector name s = .error .alreadyRun)

/-- R700: a run of a well-formed Program that addresses neither reserved variable, with a selector that is not invalid, ends
Completed or Incomplete. -/
def Obligations.ValidRunNeverFaults : Prop :=
  ∀ (s t : State) (budget : Nat), s.status = .ready → wellFormedProgram s.program = true →
    (∀ r ∈ s.program, ∀ k, r.raw.operand = .key k → s.reserved k = false) → s.bsel ≠ .invalid →
    runInstance budget s = .ok t → t.status = .completed ∨ t.status = .incomplete

/-! ### 70: reset, the run loop, the host -/

/-- R800, R801, R802 (values the source does not fix are the spec's own decision, 92_eei_decisions.md D14): an instance made by NewRun has the reset values, every key reads 0, and it is at index 0. -/
def Obligations.NewRunHasResetValues : Prop :=
  ∀ (cfg : Config) (p : Program),
    let s := newRun cfg p
    s.program = p ∧ s.a = 0 ∧ s.x = 0 ∧ s.y = 0 ∧ s.flags = ⟨false, false, false, false⟩ ∧ s.pc = 0 ∧ s.stack = [] ∧
    s.vars = [] ∧ (∀ k, s.vars.read k = 0) ∧ s.bsel = .unset ∧ s.btaken = .absent ∧ s.ticks = 0 ∧ s.status = .ready ∧
    (p = [] → ∃ t, step s = .next t ∧ t = { s with status := .completed })

/-- The invariant of a run (R106, R125, R207, R307, R721 and the others it names) holds of every fresh instance of a
well-formed Program, and of the reset state. -/
def Obligations.FreshInstanceMeetsInv : Prop :=
  (∀ (cfg : Config) (p : Program), wellFormedProgram p = true → Inv (newRun cfg p)) ∧ Inv State.reset

/-- The invariant of a run is kept by every step, from every state that meets it. -/
def Obligations.StepKeepsInv : Prop :=
  ∀ s t : State, Inv s → step s = .next t → Inv t

/-- The host's operations before a run keep the invariant of a run, and so does a whole run (R804, R805, R807). -/
def Obligations.HostOperationsKeepInv : Prop :=
  (∀ (s t : State) (k : Key) (v : Int), Inv s → seedVar k v s = .ok t → Inv t) ∧
  (∀ (s t : State) (name : List Char), Inv s → setBranchSelector name s = .ok t → Inv t) ∧
  (∀ (s t : State) (budget : Nat), Inv s → s.ticks ≤ budget → runInstance budget s = .ok t → Inv t)

/-- A step runs the decoded instruction: the records at `pc` that encode a well-formed instruction execute as it does, with
nothing around it (the advance and the tick are part of `exec`). -/
def Obligations.StepRunsDecodedInstruction : Prop :=
  ∀ (s : State) (r : Record) (i : Instr), s.status = .ready → s.program[s.pc]? = some r → s.ticks < s.budget →
    i.wf = true → r.raw = encode i → step s = exec i s

/-- R808, R810, R811: where the loop's test fails the step ends the run, consuming no tick: Completed where pc is out of
range, whatever the budget, and Incomplete where the budget is used with pc in range. -/
def Obligations.LoopEndSetsStatus : Prop :=
  ∀ s : State, s.status = .ready →
    (s.program.length ≤ s.pc → step s = .next { s with status := .completed }) ∧
    (s.pc < s.program.length → s.budget ≤ s.ticks → step s = .next { s with status := .incomplete })

/-- R807: Run takes every ready instance to an end within its budget: the status is no longer Ready, and an incomplete run has
used the budget. -/
def Obligations.RunReachesAnEnd : Prop :=
  ∀ (s : State) (budget : Nat), s.status = .ready → s.ticks ≤ budget →
    ∃ t, runInstance budget s = .ok t ∧ t.status ≠ .ready ∧ s.ticks ≤ t.ticks ∧ t.ticks ≤ budget ∧
      (t.status = .incomplete → t.ticks = budget ∧ t.pc < t.program.length) ∧
      (t.status = .completed → t.program.length ≤ t.pc)

/-- R808: Run is the step iterated from the instance with its budget set, at most one step more than the ticks the budget
leaves; the one more is the step that leaves the loop, the model's choice (entry 7). -/
def Obligations.RunIsIteratedStep : Prop :=
  ∀ (s t : State) (budget : Nat), runInstance budget s = .ok t →
    ∃ k, k ≤ budget - s.ticks + 1 ∧ Host.Core.run Sys2Proof.core k { s with budget := budget } = .next t

/-- R804: SeedVar sets one slot to any integer, on a fresh instance, and is refused for a reserved or ill-formed key. -/
def Obligations.SeedVarSetsOneSlot : Prop :=
  ∀ (s : State) (k : Key) (v : Int), s.status = .ready → s.ticks = 0 →
    (k.wf = true → s.reserved k = false → ∃ t, seedVar k v s = .ok t ∧ t = { s with vars := t.vars } ∧
      t.vars.find? k = some v ∧ ∀ j, j ≠ k → t.vars.find? j = s.vars.find? j) ∧
    (k.wf = false ∨ s.reserved k = true → seedVar k v s = .error .keyRefused)

/-- R805: SetBranchSelector sets `BSEL` to the condition named, and to Invalid for any other text. -/
def Obligations.SetBranchSelectorNamesCondition : Prop :=
  ∀ s : State, s.status = .ready → s.ticks = 0 →
    (∀ e ∈ ([("bcc", .bcc), ("bcs", .bcs), ("beq", .beq), ("bne", .bne), ("bmi", .bmi), ("bpl", .bpl), ("bvc", .bvc),
        ("bvs", .bvs)] : List (String × Cond)),
      setBranchSelector e.1.toList s = .ok { s with bsel := .cond e.2 }) ∧
    (∀ text : List Char,
      text ∉ (["bcc", "bcs", "beq", "bne", "bmi", "bpl", "bvc", "bvs"] : List String).map String.toList →
      setBranchSelector text s = .ok { s with bsel := .invalid })

/-- R307, R806 (that an operand's key must be well-formed is the model's reading of R305, entry 9): LoadProgram admits exactly the Programs of at most 65535 records, each of which encodes a well-formed
instruction whose target, if it has one, is at most N. -/
def Obligations.LoadAdmitsWellFormedOnly : Prop :=
  ∀ p : Program,
    (loadProgram p = .ok p ↔ p.length ≤ 65535 ∧ ∀ r ∈ p, ∃ i : Instr, encode i = r.raw ∧
      (∀ k, i.operand = .key k → k.wf = true) ∧ (∀ t, i.operand = .index t → t ≤ p.length)) ∧
    (loadProgram p = .ok p ∨ loadProgram p = .error .loadError)

/-! ### 10 to 30: the store, the packed flags, encodings -/

/-- R114, R115: the packed byte has 0 in bits 5 to 2, unpacking it gives the flags back, and packing what a byte unpacks to
masks it with 0xC3. -/
def Obligations.PackedFlagsRoundTrip : Prop :=
  (∀ f : Flags, Flags.unpack f.pack = f ∧ f.pack &&& 0x3C#8 = 0) ∧ (∀ b : Byte, (Flags.unpack b).pack = b &&& 0xC3#8)

/-- R13 (at negative multiples of 256 the spec's own decision, 92_eei_decisions.md D30): folding is the Euclidean remainder modulo 256, for every integer. -/
def Obligations.FoldIsRemainder256 : Prop :=
  ∀ v : Int, ((fold v).toNat : Int) = v % 256

/-- The model's own canonical form (entry 6), in the sense of R202 and R203: two stores in it that hold the same slots are
equal as data. -/
def Obligations.CanonicalStoresAreEqualData : Prop :=
  ∀ m n : Memory, m.wf = true → n.wf = true → (∀ k, m.find? k = n.find? k) → m = n

/-- R305, R311, R314: decoding the encoding of a well-formed instruction gives it back, with every operand. -/
def Obligations.DecodeInvertsEncode : Prop :=
  ∀ i : Instr, i.wf = true → decode (encode i) = .ok i

/-- R306, R319 (with the model's reading of R305 for keys, entry 9): each record that decodes is the encoding of what it decodes to, which is well-formed: there is no second
decoding. -/
def Obligations.EncodeInvertsDecode : Prop :=
  ∀ (w : RawInstr) (i : Instr), decode w = .ok i → encode i = w ∧ i.wf = true

/-- R314, R315: the table has 92 tags, all different; they are exactly the tags that decode with some operand. -/
def Obligations.NinetyTwoTagsDecode : Prop :=
  opcodeTable.length = 92 ∧ (opcodeTable.map (·.1)).Nodup ∧
  ∀ tag : Byte, (∃ operand i, decode ⟨tag, operand⟩ = .ok i) ↔ tag.toNat ∈ opcodeTable.map (·.1)

/-- R312, R314: an instruction's pair is legal and its row is in the table, and every legal pair is some instruction's. -/
def Obligations.InstructionsAreTheLegalPairs : Prop :=
  (∀ i : Instr, (encodeTag i |>.toNat, i.mnemonic, i.mode) ∈ opcodeTable) ∧
  (∀ (m : Mnemonic) (md : Mode), legalPair m md = true ↔ ∃ i : Instr, i.mnemonic = m ∧ i.mode = md)

/-- Words of R314 written out from its "bits" column, one of each family, decode to the instruction they stand for. That
a bare word stands for an operand of zeros is the model's choice (entry 5). -/
def Obligations.WrittenTagsDecode : Prop :=
  decodeTableWord 8 0b01101001 = some (.adcImm 0) ∧ decodeTableWord 8 0b00101100 = some (.bitAbs (.num 0)) ∧
  decodeTableWord 8 0b01101010 = some .rorAcc ∧ decodeTableWord 8 0b11000100 = some (.cpyZp (.num 0)) ∧
  decodeTableWord 8 0b11001110 = some (.decAbs (.num 0)) ∧ decodeTableWord 8 0b00000010 = some (.branch 0) ∧
  decodeTableWord 8 0b10011010 = some .txs ∧ decodeTableWord 8 0b10111000 = some .clv ∧
  decodeTableWord 8 0b10000110 = some (.stxZp (.num 0)) ∧ decodeTableWord 8 0b00000000 = none

/-- R307, R345, R806: what the assembler produces is always well-formed (a source of more than 65535 instructions is an error,
the model's choice, entry 18). -/
def Obligations.AssembledProgramIsWellFormed : Prop :=
  ∀ (src : List Char) (p : Program), assemble src = .ok p → wellFormedProgram p = true
end

