-- ==== Sys2Proof/Laws/Assembler.lean ====
section
/-! SUPPORT. What the assembler's checks let through. -/

namespace Sys2Proof.Machine

/-- What the length check answers: the Program itself, of at most 65535 records (30_encoding.md R307). -/
theorem withinLength_ok {p q : Program} (h : withinLength p = .ok q) : q = p ∧ p.length ≤ maxProgramLength := by
  unfold withinLength at h
  split at h
  · next hn => cases h; exact ⟨rfl, List.getElem?_eq_none_iff.mp hn⟩
  · cases h

/-- The key of an identifier term is a key of 20_memory.md R201, and no `-` stands before the identifier (R344). -/
theorem identKey_some {t : Bool × List Char} {off : Int} {k : Key} (h : identKey t off = some k) :
    k.wf = true ∧ t.1 = false := by
  unfold identKey at h
  split at h
  · next hw =>
    simp only [Bool.and_eq_true, Bool.not_eq_true'] at hw
    split at h
    · cases h; exact ⟨hw.2, hw.1⟩
    · next hv => cases h; exact ⟨by simp [Key.wf, hw.2, hv], hw.1⟩
  · cases h

/-- A variable-mode expression has one term or two, and its key is a key of 20_memory.md R201 (R344). -/
theorem keyOf_some {arg : List Char} {k : Key} (h : keyOf arg = some k) :
    k.wf = true ∧ (terms arg).length ≤ 2 := by
  unfold keyOf at h
  split at h
  · next t ht =>
    refine ⟨?_, by simp [ht]⟩
    split at h
    · exact (identKey_some h).1
    · obtain ⟨v, -, rfl⟩ := Option.map_eq_some_iff.mp h
      rfl
  · next t u ht =>
    refine ⟨?_, by simp [ht]⟩
    split at h
    · obtain ⟨v, -, hk⟩ := Option.bind_eq_some_iff.mp h
      exact (identKey_some hk).1
    · cases h
  · cases h

end Sys2Proof.Machine
end

