-- ==== Sys2Proof/Laws/Memory.lean ====
section
/-! SUPPORT. The laws of the variable store: the order of its keys, reading after writing, and its canonical form. -/

namespace Sys2Proof.Machine

/-! ### The order of keys -/

theorem intCode_injective {p q : Int} (h : intCode p = intCode q) : p = q := by
  cases p <;> cases q <;> simp only [intCode] at h <;> first | omega | (congr 1; omega)

theorem map_toNat_injective : ∀ {p q : List Char}, p.map Char.toNat = q.map Char.toNat → p = q
  | [], [], _ => rfl
  | _ :: _, _ :: _, h => by
    simp only [List.map_cons, List.cons.injEq] at h
    have hc := Char.toNat_inj.mp h.1
    rw [hc, map_toNat_injective h.2]

theorem keyCode_injective {j k : Key} (h : keyCode j = keyCode k) : j = k := by
  cases j <;> cases k <;> simp [keyCode] at h
  · rw [intCode_injective h]
  · rw [map_toNat_injective h]
  · rw [intCode_injective h.1, map_toNat_injective h.2]

theorem codeLt_irrefl : ∀ p : List Nat, codeLt p p = false
  | [] => rfl
  | _ :: ps => by simp [codeLt, codeLt_irrefl ps]

theorem codeLt_trans : ∀ {p q r : List Nat}, codeLt p q = true → codeLt q r = true → codeLt p r = true
  | [], _ :: _, _ :: _, _, _ => rfl
  | p :: ps, q :: qs, r :: rs, h₁, h₂ => by
    simp only [codeLt, Bool.or_eq_true, decide_eq_true_eq, Bool.and_eq_true, beq_iff_eq] at *
    rcases h₁ with h₁ | ⟨rfl, h₁⟩ <;> rcases h₂ with h₂ | ⟨rfl, h₂⟩
    · exact .inl (h₁.trans h₂)
    · exact .inl h₁
    · exact .inl h₂
    · exact .inr ⟨rfl, codeLt_trans h₁ h₂⟩

theorem codeLt_total : ∀ {p q : List Nat}, p ≠ q → codeLt p q = false → codeLt q p = true
  | [], [], h, _ => absurd rfl h
  | [], _ :: _, _, h => by simp [codeLt] at h
  | _ :: _, [], _, _ => rfl
  | p :: ps, q :: qs, hne, h => by
    simp only [codeLt, Bool.or_eq_false_iff, Bool.or_eq_true, decide_eq_true_eq, decide_eq_false_iff_not,
      Bool.and_eq_true, beq_iff_eq] at *
    by_cases hpq : p = q
    · subst hpq
      refine .inr ⟨rfl, codeLt_total (fun e => hne (by rw [e])) ?_⟩
      simpa using h.2
    · exact .inl (by omega)

theorem keyLt_irrefl (k : Key) : keyLt k k = false := codeLt_irrefl _

theorem keyLt_trans {i j k : Key} (h₁ : keyLt i j = true) (h₂ : keyLt j k = true) : keyLt i k = true :=
  codeLt_trans h₁ h₂

theorem keyLt_total {j k : Key} (hne : j ≠ k) (h : keyLt j k = false) : keyLt k j = true :=
  codeLt_total (fun e => hne (keyCode_injective e)) h

/-! ### Reading after writing -/

/-- A slot reads as what was last written to it (20_memory.md R204). -/
theorem find?_write_same : ∀ (m : Memory) (k : Key) (v : Int), (m.write k v).find? k = some v
  | [], k, v => by simp [Memory.write, Memory.find?]
  | e :: m, k, v => by
    simp only [Memory.write]
    split
    · simp [Memory.find?]
    · split
      · simp [Memory.find?]
      · simp_all [Memory.find?, find?_write_same m k v]

/-- A write leaves every other slot as it was, a slot that does not exist too (20_memory.md R202). -/
theorem find?_write_other : ∀ (m : Memory) {j k : Key} (v : Int), j ≠ k → (m.write k v).find? j = m.find? j
  | [], j, k, v, h => by simp [Memory.write, Memory.find?, Ne.symm h]
  | e :: m, j, k, v, h => by
    simp only [Memory.write]
    split
    · next he => simp [Memory.find?, he, Ne.symm h]
    · split
      · simp [Memory.find?, Ne.symm h]
      · simp [Memory.find?, find?_write_other m v h]

theorem read_write_same (m : Memory) (k : Key) (v : Int) : (m.write k v).read k = v := by
  simp [Memory.read, find?_write_same]

theorem read_write_other (m : Memory) {j k : Key} (v : Int) (h : j ≠ k) : (m.write k v).read j = m.read j := by
  simp [Memory.read, find?_write_other m v h]

/-! ### The canonical form -/

/-- Every entry after a write is the entry written or one that was there. -/
theorem mem_write : ∀ {m : Memory} {k : Key} {v : Int} {e : Key × Int}, e ∈ m.write k v → e = (k, v) ∨ e ∈ m
  | [], k, v, e, h => by simpa [Memory.write] using h
  | d :: m, k, v, e, h => by
    simp only [Memory.write] at h
    split at h
    · rcases List.mem_cons.mp h with h | h
      · exact .inl h
      · exact .inr (List.mem_cons_of_mem _ h)
    · split at h
      · exact List.mem_cons.mp h
      · rcases List.mem_cons.mp h with h | h
        · exact .inr (h ▸ List.mem_cons_self)
        · rcases mem_write h with h | h
          · exact .inl h
          · exact .inr (List.mem_cons_of_mem _ h)

/-- A write keeps the canonical form. -/
theorem wf_write : ∀ {m : Memory} (k : Key) (v : Int), m.wf = true → (m.write k v).wf = true
  | [], _, _, _ => rfl
  | d :: m, k, v, h => by
    simp only [Memory.wf, Bool.and_eq_true, List.all_eq_true] at h
    simp only [Memory.write]
    split
    · next he =>
      simp only [Memory.wf, Bool.and_eq_true, List.all_eq_true]
      exact ⟨fun e hm => he ▸ h.1 e hm, h.2⟩
    · next hne =>
      split
      · next hlt =>
        simp only [Memory.wf, Bool.and_eq_true, List.all_eq_true]
        refine ⟨fun e hm => ?_, h⟩
        rcases List.mem_cons.mp hm with rfl | hm
        · exact hlt
        · exact keyLt_trans hlt (h.1 e hm)
      · next hge =>
        simp only [Memory.wf, Bool.and_eq_true, List.all_eq_true]
        refine ⟨fun e hm => ?_, wf_write k v h.2⟩
        rcases mem_write hm with rfl | hm
        · exact keyLt_total (Ne.symm hne) (by simpa using hge)
        · exact h.1 e hm

/-- The store of the reset state has the canonical form. -/
theorem wf_reset : State.reset.vars.wf = true := rfl

end Sys2Proof.Machine
end

