-- ==== Sys2Proof/Laws/State.lean ====
section
/-! SUPPORT. One lemma per field of State per named update, so that no later proof unfolds a record update. -/

namespace Sys2Proof.Machine

/-! ### `State.advance` -/

@[simp] theorem State.advance_a (s : State) : s.advance.a = s.a := rfl
@[simp] theorem State.advance_x (s : State) : s.advance.x = s.x := rfl
@[simp] theorem State.advance_y (s : State) : s.advance.y = s.y := rfl
@[simp] theorem State.advance_flags (s : State) : s.advance.flags = s.flags := rfl
@[simp] theorem State.advance_pc (s : State) : s.advance.pc = s.pc + 1 := rfl
@[simp] theorem State.advance_stack (s : State) : s.advance.stack = s.stack := rfl
@[simp] theorem State.advance_vars (s : State) : s.advance.vars = s.vars := rfl
@[simp] theorem State.advance_bsel (s : State) : s.advance.bsel = s.bsel := rfl
@[simp] theorem State.advance_btaken (s : State) : s.advance.btaken = s.btaken := rfl
@[simp] theorem State.advance_ticks (s : State) : s.advance.ticks = s.ticks := rfl
@[simp] theorem State.advance_status (s : State) : s.advance.status = s.status := rfl
@[simp] theorem State.advance_program (s : State) : s.advance.program = s.program := rfl
@[simp] theorem State.advance_budget (s : State) : s.advance.budget = s.budget := rfl
@[simp] theorem State.advance_cfg (s : State) : s.advance.cfg = s.cfg := rfl

/-! ### `State.countTick` -/

@[simp] theorem State.countTick_a (s : State) : s.countTick.a = s.a := rfl
@[simp] theorem State.countTick_x (s : State) : s.countTick.x = s.x := rfl
@[simp] theorem State.countTick_y (s : State) : s.countTick.y = s.y := rfl
@[simp] theorem State.countTick_flags (s : State) : s.countTick.flags = s.flags := rfl
@[simp] theorem State.countTick_pc (s : State) : s.countTick.pc = s.pc := rfl
@[simp] theorem State.countTick_stack (s : State) : s.countTick.stack = s.stack := rfl
@[simp] theorem State.countTick_vars (s : State) : s.countTick.vars = s.vars := rfl
@[simp] theorem State.countTick_bsel (s : State) : s.countTick.bsel = s.bsel := rfl
@[simp] theorem State.countTick_btaken (s : State) : s.countTick.btaken = s.btaken := rfl
@[simp] theorem State.countTick_ticks (s : State) : s.countTick.ticks = s.ticks + 1 := rfl
@[simp] theorem State.countTick_status (s : State) : s.countTick.status = s.status := rfl
@[simp] theorem State.countTick_program (s : State) : s.countTick.program = s.program := rfl
@[simp] theorem State.countTick_budget (s : State) : s.countTick.budget = s.budget := rfl
@[simp] theorem State.countTick_cfg (s : State) : s.countTick.cfg = s.cfg := rfl

/-! ### `State.takeFault` -/

@[simp] theorem State.takeFault_a (s : State) (e : Raised) : (s.takeFault e).a = s.a := rfl
@[simp] theorem State.takeFault_x (s : State) (e : Raised) : (s.takeFault e).x = s.x := rfl
@[simp] theorem State.takeFault_y (s : State) (e : Raised) : (s.takeFault e).y = s.y := rfl
@[simp] theorem State.takeFault_flags (s : State) (e : Raised) : (s.takeFault e).flags = s.flags := rfl
@[simp] theorem State.takeFault_pc (s : State) (e : Raised) : (s.takeFault e).pc = s.pc := rfl
@[simp] theorem State.takeFault_stack (s : State) (e : Raised) : (s.takeFault e).stack = s.stack := rfl
@[simp] theorem State.takeFault_vars (s : State) (e : Raised) : (s.takeFault e).vars = s.vars := rfl
@[simp] theorem State.takeFault_bsel (s : State) (e : Raised) : (s.takeFault e).bsel = s.bsel := rfl
@[simp] theorem State.takeFault_btaken (s : State) (e : Raised) : (s.takeFault e).btaken = s.btaken := rfl
@[simp] theorem State.takeFault_ticks (s : State) (e : Raised) : (s.takeFault e).ticks = s.ticks := rfl
@[simp] theorem State.takeFault_status (s : State) (e : Raised) : (s.takeFault e).status = .faulted e.kind ⟨s.pc, s.lineAtPc, e.key⟩ := rfl
@[simp] theorem State.takeFault_program (s : State) (e : Raised) : (s.takeFault e).program = s.program := rfl
@[simp] theorem State.takeFault_budget (s : State) (e : Raised) : (s.takeFault e).budget = s.budget := rfl
@[simp] theorem State.takeFault_cfg (s : State) (e : Raised) : (s.takeFault e).cfg = s.cfg := rfl

/-! ### `State.loadA` -/

@[simp] theorem State.loadA_a (s : State) (m : Byte) : (s.loadA m).a = m := rfl
@[simp] theorem State.loadA_x (s : State) (m : Byte) : (s.loadA m).x = s.x := rfl
@[simp] theorem State.loadA_y (s : State) (m : Byte) : (s.loadA m).y = s.y := rfl
@[simp] theorem State.loadA_flags (s : State) (m : Byte) : (s.loadA m).flags = s.flags.setNZ m := rfl
@[simp] theorem State.loadA_pc (s : State) (m : Byte) : (s.loadA m).pc = s.pc := rfl
@[simp] theorem State.loadA_stack (s : State) (m : Byte) : (s.loadA m).stack = s.stack := rfl
@[simp] theorem State.loadA_vars (s : State) (m : Byte) : (s.loadA m).vars = s.vars := rfl
@[simp] theorem State.loadA_bsel (s : State) (m : Byte) : (s.loadA m).bsel = s.bsel := rfl
@[simp] theorem State.loadA_btaken (s : State) (m : Byte) : (s.loadA m).btaken = s.btaken := rfl
@[simp] theorem State.loadA_ticks (s : State) (m : Byte) : (s.loadA m).ticks = s.ticks := rfl
@[simp] theorem State.loadA_status (s : State) (m : Byte) : (s.loadA m).status = s.status := rfl
@[simp] theorem State.loadA_program (s : State) (m : Byte) : (s.loadA m).program = s.program := rfl
@[simp] theorem State.loadA_budget (s : State) (m : Byte) : (s.loadA m).budget = s.budget := rfl
@[simp] theorem State.loadA_cfg (s : State) (m : Byte) : (s.loadA m).cfg = s.cfg := rfl

/-! ### `State.loadX` -/

@[simp] theorem State.loadX_a (s : State) (m : Byte) : (s.loadX m).a = s.a := rfl
@[simp] theorem State.loadX_x (s : State) (m : Byte) : (s.loadX m).x = m := rfl
@[simp] theorem State.loadX_y (s : State) (m : Byte) : (s.loadX m).y = s.y := rfl
@[simp] theorem State.loadX_flags (s : State) (m : Byte) : (s.loadX m).flags = s.flags.setNZ m := rfl
@[simp] theorem State.loadX_pc (s : State) (m : Byte) : (s.loadX m).pc = s.pc := rfl
@[simp] theorem State.loadX_stack (s : State) (m : Byte) : (s.loadX m).stack = s.stack := rfl
@[simp] theorem State.loadX_vars (s : State) (m : Byte) : (s.loadX m).vars = s.vars := rfl
@[simp] theorem State.loadX_bsel (s : State) (m : Byte) : (s.loadX m).bsel = s.bsel := rfl
@[simp] theorem State.loadX_btaken (s : State) (m : Byte) : (s.loadX m).btaken = s.btaken := rfl
@[simp] theorem State.loadX_ticks (s : State) (m : Byte) : (s.loadX m).ticks = s.ticks := rfl
@[simp] theorem State.loadX_status (s : State) (m : Byte) : (s.loadX m).status = s.status := rfl
@[simp] theorem State.loadX_program (s : State) (m : Byte) : (s.loadX m).program = s.program := rfl
@[simp] theorem State.loadX_budget (s : State) (m : Byte) : (s.loadX m).budget = s.budget := rfl
@[simp] theorem State.loadX_cfg (s : State) (m : Byte) : (s.loadX m).cfg = s.cfg := rfl

/-! ### `State.loadY` -/

@[simp] theorem State.loadY_a (s : State) (m : Byte) : (s.loadY m).a = s.a := rfl
@[simp] theorem State.loadY_x (s : State) (m : Byte) : (s.loadY m).x = s.x := rfl
@[simp] theorem State.loadY_y (s : State) (m : Byte) : (s.loadY m).y = m := rfl
@[simp] theorem State.loadY_flags (s : State) (m : Byte) : (s.loadY m).flags = s.flags.setNZ m := rfl
@[simp] theorem State.loadY_pc (s : State) (m : Byte) : (s.loadY m).pc = s.pc := rfl
@[simp] theorem State.loadY_stack (s : State) (m : Byte) : (s.loadY m).stack = s.stack := rfl
@[simp] theorem State.loadY_vars (s : State) (m : Byte) : (s.loadY m).vars = s.vars := rfl
@[simp] theorem State.loadY_bsel (s : State) (m : Byte) : (s.loadY m).bsel = s.bsel := rfl
@[simp] theorem State.loadY_btaken (s : State) (m : Byte) : (s.loadY m).btaken = s.btaken := rfl
@[simp] theorem State.loadY_ticks (s : State) (m : Byte) : (s.loadY m).ticks = s.ticks := rfl
@[simp] theorem State.loadY_status (s : State) (m : Byte) : (s.loadY m).status = s.status := rfl
@[simp] theorem State.loadY_program (s : State) (m : Byte) : (s.loadY m).program = s.program := rfl
@[simp] theorem State.loadY_budget (s : State) (m : Byte) : (s.loadY m).budget = s.budget := rfl
@[simp] theorem State.loadY_cfg (s : State) (m : Byte) : (s.loadY m).cfg = s.cfg := rfl

/-! ### `State.push` -/

@[simp] theorem State.push_a (s : State) (m : Byte) : (s.push m).a = s.a := rfl
@[simp] theorem State.push_x (s : State) (m : Byte) : (s.push m).x = s.x := rfl
@[simp] theorem State.push_y (s : State) (m : Byte) : (s.push m).y = s.y := rfl
@[simp] theorem State.push_flags (s : State) (m : Byte) : (s.push m).flags = s.flags := rfl
@[simp] theorem State.push_pc (s : State) (m : Byte) : (s.push m).pc = s.pc := rfl
@[simp] theorem State.push_stack (s : State) (m : Byte) : (s.push m).stack = s.stack ++ [m] := rfl
@[simp] theorem State.push_vars (s : State) (m : Byte) : (s.push m).vars = s.vars := rfl
@[simp] theorem State.push_bsel (s : State) (m : Byte) : (s.push m).bsel = s.bsel := rfl
@[simp] theorem State.push_btaken (s : State) (m : Byte) : (s.push m).btaken = s.btaken := rfl
@[simp] theorem State.push_ticks (s : State) (m : Byte) : (s.push m).ticks = s.ticks := rfl
@[simp] theorem State.push_status (s : State) (m : Byte) : (s.push m).status = s.status := rfl
@[simp] theorem State.push_program (s : State) (m : Byte) : (s.push m).program = s.program := rfl
@[simp] theorem State.push_budget (s : State) (m : Byte) : (s.push m).budget = s.budget := rfl
@[simp] theorem State.push_cfg (s : State) (m : Byte) : (s.push m).cfg = s.cfg := rfl

/-! ### `State.drop` -/

@[simp] theorem State.drop_a (s : State) : s.drop.a = s.a := rfl
@[simp] theorem State.drop_x (s : State) : s.drop.x = s.x := rfl
@[simp] theorem State.drop_y (s : State) : s.drop.y = s.y := rfl
@[simp] theorem State.drop_flags (s : State) : s.drop.flags = s.flags := rfl
@[simp] theorem State.drop_pc (s : State) : s.drop.pc = s.pc := rfl
@[simp] theorem State.drop_stack (s : State) : s.drop.stack = s.stack.dropLast := rfl
@[simp] theorem State.drop_vars (s : State) : s.drop.vars = s.vars := rfl
@[simp] theorem State.drop_bsel (s : State) : s.drop.bsel = s.bsel := rfl
@[simp] theorem State.drop_btaken (s : State) : s.drop.btaken = s.btaken := rfl
@[simp] theorem State.drop_ticks (s : State) : s.drop.ticks = s.ticks := rfl
@[simp] theorem State.drop_status (s : State) : s.drop.status = s.status := rfl
@[simp] theorem State.drop_program (s : State) : s.drop.program = s.program := rfl
@[simp] theorem State.drop_budget (s : State) : s.drop.budget = s.budget := rfl
@[simp] theorem State.drop_cfg (s : State) : s.drop.cfg = s.cfg := rfl

/-! ### `State.goto` -/

@[simp] theorem State.goto_a (s : State) (t : Nat) : (s.goto t).a = s.a := rfl
@[simp] theorem State.goto_x (s : State) (t : Nat) : (s.goto t).x = s.x := rfl
@[simp] theorem State.goto_y (s : State) (t : Nat) : (s.goto t).y = s.y := rfl
@[simp] theorem State.goto_flags (s : State) (t : Nat) : (s.goto t).flags = s.flags := rfl
@[simp] theorem State.goto_pc (s : State) (t : Nat) : (s.goto t).pc = t := rfl
@[simp] theorem State.goto_stack (s : State) (t : Nat) : (s.goto t).stack = s.stack := rfl
@[simp] theorem State.goto_vars (s : State) (t : Nat) : (s.goto t).vars = s.vars := rfl
@[simp] theorem State.goto_bsel (s : State) (t : Nat) : (s.goto t).bsel = s.bsel := rfl
@[simp] theorem State.goto_btaken (s : State) (t : Nat) : (s.goto t).btaken = s.btaken := rfl
@[simp] theorem State.goto_ticks (s : State) (t : Nat) : (s.goto t).ticks = s.ticks := rfl
@[simp] theorem State.goto_status (s : State) (t : Nat) : (s.goto t).status = s.status := rfl
@[simp] theorem State.goto_program (s : State) (t : Nat) : (s.goto t).program = s.program := rfl
@[simp] theorem State.goto_budget (s : State) (t : Nat) : (s.goto t).budget = s.budget := rfl
@[simp] theorem State.goto_cfg (s : State) (t : Nat) : (s.goto t).cfg = s.cfg := rfl

/-! ### Flags -/

@[simp] theorem Flags.setNZ_c (f : Flags) (m : Byte) : (f.setNZ m).c = f.c := rfl
@[simp] theorem Flags.setNZ_v (f : Flags) (m : Byte) : (f.setNZ m).v = f.v := rfl
@[simp] theorem Flags.setNZ_z (f : Flags) (m : Byte) : (f.setNZ m).z = decide (m = 0) := rfl
@[simp] theorem Flags.setNZ_n (f : Flags) (m : Byte) : (f.setNZ m).n = decide (127 < m.toNat) := rfl

/-! ### What a tick reads of the state it begins in -/

@[simp] theorem State.advance_reserved (s : State) (k : Key) : s.advance.reserved k = s.reserved k := rfl
@[simp] theorem State.advance_depth (s : State) : s.advance.depth = s.depth := rfl
@[simp] theorem State.advance_top (s : State) : s.advance.top = s.top := rfl
@[simp] theorem State.advance_programSize (s : State) : s.advance.programSize = s.programSize := rfl
@[simp] theorem State.advance_loadOp (s : State) (o : Operand) : s.advance.loadOp o = s.loadOp o := by cases o <;> rfl

end Sys2Proof.Machine
end

