-- ==== Sys2Proof/Laws/Ops.lean ====
section
/-! SUPPORT. What each shared operation can do, said once. -/

namespace Sys2Proof.Machine

/-! ### Fault codes -/

/-- No two kinds share a code (60_exceptions.md R701). -/
theorem code_injective {j k : FaultKind} (h : j.code = k.code) : j = k := by
  cases j <;> cases k <;> first | rfl | cases h

@[simp] theorem takeFault_faultCode (s : State) (e : Raised) : (s.takeFault e).status.faultCode = some e.kind.code := rfl

/-! ### The frame of a tick -/

/-- A tick always answers a next state: the one the body left, its tick counted, or the fault taken in the state before. -/
theorem oneTick_cases {body : State → Effect} {s t : State} (h : oneTick body s = .next t) :
    (∃ u, body s.advance = .ok u ∧ t = u.countTick) ∨ (∃ e, body s.advance = .error e ∧ t = s.takeFault e) := by
  unfold oneTick at h
  split at h
  · next u hu => exact .inl ⟨u, hu, by cases h; rfl⟩
  · next e he => exact .inr ⟨e, he, by cases h; rfl⟩

theorem oneTick_answers (body : State → Effect) (s : State) : ∃ t, oneTick body s = .next t := by
  unfold oneTick
  split <;> exact ⟨_, rfl⟩

theorem oneTick_ok {body : State → Effect} {s u : State} (h : body s.advance = .ok u) :
    oneTick body s = .next u.countTick := by simp only [oneTick, h]

theorem oneTick_error {body : State → Effect} {s : State} {e : Raised} (h : body s.advance = .error e) :
    oneTick body s = .next (s.takeFault e) := by simp only [oneTick, h]

theorem plainTick_oneTick (body : State → State) (s : State) : plainTick body s = oneTick (fun t => .ok (body t)) s := rfl

theorem plainTick_eq (body : State → State) (s : State) : plainTick body s = .next (body s.advance).countTick := rfl

theorem plainTick_cases {body : State → State} {s t : State} (h : plainTick body s = .next t) :
    t = (body s.advance).countTick := by cases h; rfl

/-! ### Operands -/

@[simp] theorem loadOp_acc (s : State) : s.loadOp .acc = .ok s.a := rfl
@[simp] theorem loadOp_imm (s : State) (v : Int) : s.loadOp (.imm v) = .ok (fold v) := rfl

/-- A variable operand that is not reserved reads as its slot, folded (30_encoding.md R324). -/
theorem loadOp_var {s : State} {k : Key} (h : s.reserved k = false) : s.loadOp (.var k) = .ok (fold (s.vars.read k)) := by
  simp [State.loadOp, h]

/-- A reserved one faults (30_encoding.md R324). -/
theorem loadOp_reserved {s : State} {k : Key} (h : s.reserved k = true) :
    s.loadOp (.var k) = .error (reservedKey k) := by simp [State.loadOp, h]

@[simp] theorem storeOp_acc (s : State) (v : Int) : s.storeOp .acc v = .ok { s with a := fold v } := rfl

theorem storeOp_var {s : State} {k : Key} (v : Int) (h : s.reserved k = false) :
    s.storeOp (.var k) v = .ok { s with vars := s.vars.write k ((fold v).toNat : Int) } := by
  simp [State.storeOp, h]

theorem storeOp_reserved {s : State} {k : Key} (v : Int) (h : s.reserved k = true) :
    s.storeOp (.var k) v = .error (reservedKey k) := by simp [State.storeOp, h]

/-- What a store can do: A is written, or the slot of a key that is not reserved, or a reserved key faults. -/
theorem storeOp_cases {s : State} {p : Place} {v : Int} {r : Effect} (h : s.storeOp p v = r) :
    (p = .acc ∧ r = .ok { s with a := fold v }) ∨
    (∃ k, p = .var k ∧ s.reserved k = false ∧ r = .ok { s with vars := s.vars.write k ((fold v).toNat : Int) }) ∨
    (∃ k, p = .var k ∧ s.reserved k = true ∧ r = .error (reservedKey k)) := by
  cases p with
  | acc => exact .inl ⟨rfl, h.symm⟩
  | var k =>
    cases hk : s.reserved k
    · exact .inr (.inl ⟨k, rfl, hk, by rw [← h, storeOp_var v hk]⟩)
    · exact .inr (.inr ⟨k, rfl, hk, by rw [← h, storeOp_reserved v hk]⟩)

theorem withOperand_ok {o : Operand} {f : Byte → State → State} {s : State} {m : Byte} (h : s.loadOp o = .ok m) :
    withOperand o f s = .ok (f m s) := by simp [withOperand, h]

theorem withOperand_error {o : Operand} {f : Byte → State → State} {s : State} {e : Raised} (h : s.loadOp o = .error e) :
    withOperand o f s = .error e := by simp [withOperand, h]

theorem withOperand_cases {o : Operand} {f : Byte → State → State} {s : State} {r : Effect} (h : withOperand o f s = r) :
    (∃ m, s.loadOp o = .ok m ∧ r = .ok (f m s)) ∨ (∃ k, o = .var k ∧ s.reserved k = true ∧ r = .error (reservedKey k)) := by
  cases o with
  | acc => exact .inl ⟨_, rfl, h.symm⟩
  | imm v => exact .inl ⟨_, rfl, h.symm⟩
  | var k =>
    cases hk : s.reserved k
    · exact .inl ⟨_, loadOp_var hk, by rw [← h, withOperand_ok (loadOp_var hk)]⟩
    · exact .inr ⟨k, rfl, hk, by rw [← h, withOperand_error (loadOp_reserved hk)]⟩

theorem modify_acc (op : Byte → Flags → Byte × Flags) (s : State) :
    modify .acc op s = .ok { s with a := (op s.a s.flags).1, flags := (op s.a s.flags).2 } := by
  simp [modify, Place.operand, fold]

theorem fold_toNat (m : Byte) : fold (m.toNat : Int) = m := by simp [fold]

theorem modify_var {k : Key} (op : Byte → Flags → Byte × Flags) {s : State} (h : s.reserved k = false) :
    modify (.var k) op s = .ok { s with
      flags := (op (fold (s.vars.read k)) s.flags).2
      vars := s.vars.write k ((op (fold (s.vars.read k)) s.flags).1.toNat : Int) } := by
  have h' : ∀ g : Flags, ({ s with flags := g } : State).reserved k = false := fun _ => h
  simp only [modify, Place.operand, loadOp_var h, storeOp_var _ (h' _), fold_toNat]

theorem modify_reserved {k : Key} (op : Byte → Flags → Byte × Flags) {s : State} (h : s.reserved k = true) :
    modify (.var k) op s = .error (reservedKey k) := by simp [modify, Place.operand, loadOp_reserved h]

/-! ### Stack and program counter -/

theorem gotoIf_eq (s : State) (f : Bool) (t : Nat) : s.gotoIf f t = { s with pc := if f then t else s.pc } := by
  cases f <;> rfl

theorem pushReturn_stack (s : State) : s.pushReturn.stack =
    s.stack ++ [BitVec.ofNat 8 ((s.pc >>> 8) &&& 0xFF), BitVec.ofNat 8 (s.pc &&& 0xFF)] := by
  simp [State.pushReturn]

/-- What a return can do: with fewer than two bytes it leaves the stack and goes to N; otherwise it pops two and goes to
the index they make (45_control.md R511). -/
theorem doReturn_cases (s : State) :
    (s.depth < 2 ∧ s.doReturn = { s with pc := s.programSize }) ∨
    (2 ≤ s.depth ∧ s.doReturn =
      { s with stack := s.stack.dropLast.dropLast, pc := s.drop.top.toNat * 256 + s.top.toNat }) := by
  by_cases h : s.depth < 2
  · exact .inl ⟨h, by simp only [State.doReturn, if_pos h]; rfl⟩
  · exact .inr ⟨by omega, by simp only [State.doReturn, if_neg h]; rfl⟩

theorem resize_length (st : List Byte) (m : Nat) : (resize st m).length = m := by
  unfold resize
  split
  · simp; omega
  · simp; omega

/-! ### The fetch -/

/-- What the run loop can find before a tick (70_reset_and_hazards.md R808). -/
theorem fetch_cases (s : State) :
    (s.status ≠ .ready ∧ s.fetch = .stopped .runEnded) ∨
    (s.status = .ready ∧ s.program.length ≤ s.pc ∧ s.fetch = .settled { s with status := .completed }) ∨
    (s.status = .ready ∧ s.pc < s.program.length ∧ s.budget ≤ s.ticks ∧
      s.fetch = .settled { s with status := .incomplete }) ∨
    (∃ r, s.status = .ready ∧ s.program[s.pc]? = some r ∧ s.ticks < s.budget ∧
      ((∃ i, decode r.raw = .ok i ∧ s.fetch = .run i) ∨
       (∃ e, decode r.raw = .error e ∧ s.fetch = .settled (s.takeFault ⟨.illegalInstruction, none⟩)))) := by
  by_cases hs : s.status = .ready
  case neg =>
    refine .inl ⟨hs, ?_⟩
    unfold State.fetch
    split <;> first | rfl | contradiction
  right
  cases hr : s.program[s.pc]? with
  | none => exact .inl ⟨hs, List.getElem?_eq_none_iff.mp hr, by simp [State.fetch, hs, hr]⟩
  | some r =>
    right
    by_cases hb : s.ticks < s.budget
    · right
      refine ⟨r, hs, rfl, hb, ?_⟩
      cases hd : decode r.raw with
      | ok i => exact .inl ⟨i, rfl, by simp [State.fetch, hs, hr, hb, hd]⟩
      | error e => exact .inr ⟨e, rfl, by simp [State.fetch, hs, hr, hb, hd]⟩
    · exact .inl ⟨hs, (List.getElem?_eq_some_iff.mp hr).1, by omega, by simp [State.fetch, hs, hr, hb]⟩

end Sys2Proof.Machine
end

