-- ==== Sys2Proof/Laws/Exec.lean ====
section
/-! SUPPORT. What an instruction and a step can do, said once for all of them. -/

namespace Sys2Proof.Machine

/-- What a completed instruction can have done, from the state `s` before it to the state `u` before its tick is counted:
the parameters, `BSEL`, `STATUS` and `TICKS` are kept, and `pc`, the stack, the slots and `BTAKEN` change only as some
instruction may change them. -/
structure Completed (i : Instr) (s u : State) : Prop where
  bsel : u.bsel = s.bsel
  ticks : u.ticks = s.ticks
  status : u.status = s.status
  program : u.program = s.program
  budget : u.budget = s.budget
  cfg : u.cfg = s.cfg
  pc : u.pc = s.pc + 1 ∨ i.operand = .index u.pc ∨ u.pc = s.programSize ∨ u.pc ≤ 65535
  depth : u.stack.length ≤ s.stack.length + 2 ∨ u.stack.length ≤ 255
  vars : u.vars = s.vars ∨
    ∃ k, ∃ b : Byte, i.operand = .key k ∧ s.reserved k = false ∧ u.vars = s.vars.write k (b.toNat : Int)
  btaken : u.btaken = s.btaken ∨ i.mnemonic = .branch

/-- What an instruction can raise (60_exceptions.md R710, R711). -/
def MayRaise (i : Instr) (s : State) (e : Raised) : Prop :=
  (∃ k, i.operand = .key k ∧ s.reserved k = true ∧ e = reservedKey k) ∨
  (i.mnemonic = .branch ∧ s.bsel = .invalid ∧ e = ⟨.invalidBranchSelector, none⟩)

/-- What an instruction can do: complete, or raise a fault and be undone. -/
def Does (i : Instr) (s : State) (r : Effect) : Prop :=
  (∃ u, r = .ok u ∧ Completed i s u) ∨ (∃ e, r = .error e ∧ MayRaise i s e)

/-! ### The bodies -/

/-- A body that writes registers and flags alone. -/
theorem Completed.ofRegisters {i : Instr} {s u : State}
    (h : u = { s.advance with a := u.a, x := u.x, y := u.y, flags := u.flags }) : Completed i s u := by
  rw [h]
  exact ⟨rfl, rfl, rfl, rfl, rfl, rfl, .inl rfl, .inl (Nat.le_add_right _ _), .inl rfl, .inl rfl⟩

theorem does_withOperand {i : Instr} {s : State} {o : Operand} {f : Byte → State → State}
    (ho : ∀ k, o = .var k → i.operand = .key k)
    (hf : ∀ m, f m s.advance = { s.advance with
      a := (f m s.advance).a, x := (f m s.advance).x, y := (f m s.advance).y, flags := (f m s.advance).flags }) :
    Does i s (withOperand o f s.advance) := by
  rcases withOperand_cases (rfl : withOperand o f s.advance = _) with ⟨m, -, hr⟩ | ⟨k, hk, hres, hr⟩
  · exact .inl ⟨_, hr, .ofRegisters (hf m)⟩
  · exact .inr ⟨_, hr, .inl ⟨k, ho k hk, hres, rfl⟩⟩

theorem does_modify {i : Instr} {s : State} {p : Place} {op : Byte → Flags → Byte × Flags}
    (hp : ∀ k, p = .var k → i.operand = .key k) : Does i s (modify p op s.advance) := by
  cases p with
  | acc => exact .inl ⟨_, modify_acc op _, .ofRegisters rfl⟩
  | var k =>
    cases hk : s.reserved k
    · exact .inl ⟨_, modify_var op (s := s.advance) hk, rfl, rfl, rfl, rfl, rfl, rfl, .inl rfl,
        .inl (Nat.le_add_right _ _), .inr ⟨k, _, hp k rfl, hk, rfl⟩, .inl rfl⟩
    · exact .inr ⟨_, modify_reserved op (s := s.advance) hk, .inl ⟨k, hp k rfl, hk, rfl⟩⟩

theorem does_store {i : Instr} {s : State} {k : Key} (b : Byte) (hi : i.operand = .key k) :
    Does i s (s.advance.storeOp (.var k) (b.toNat : Int)) := by
  cases hk : s.reserved k
  · refine .inl ⟨_, storeOp_var (s := s.advance) _ hk, rfl, rfl, rfl, rfl, rfl, rfl, .inl rfl,
      .inl (Nat.le_add_right _ _), .inr ⟨k, b, hi, hk, ?_⟩, .inl rfl⟩
    rw [fold_toNat]; rfl
  · exact .inr ⟨_, storeOp_reserved (s := s.advance) _ hk, .inl ⟨k, hi, hk, rfl⟩⟩

theorem completed_branchOn {i : Instr} {s : State} (c : Cond) {t : Nat} (hi : i.operand = .index t) :
    Completed i s (branchOn c t s.advance) := by
  unfold branchOn
  cases c.holds s.advance.flags
  · exact .ofRegisters rfl
  · exact ⟨rfl, rfl, rfl, rfl, rfl, rfl, .inr (.inl hi), .inl (Nat.le_add_right _ _), .inl rfl, .inl rfl⟩

theorem byte_pair_le (h l : Byte) : h.toNat * 256 + l.toNat ≤ 65535 := by omega

theorem completed_doReturn {i : Instr} {s u : State} (h : u = { s.advance with stack := u.stack, flags := u.flags })
    (hlen : u.stack.length ≤ s.stack.length) : Completed i s u.doReturn := by
  rcases doReturn_cases u with ⟨-, hr⟩ | ⟨-, hr⟩ <;> rw [hr]
  · rw [h]
    exact ⟨rfl, rfl, rfl, rfl, rfl, rfl, .inr (.inr (.inl rfl)), .inl (by simpa using by omega), .inl rfl, .inl rfl⟩
  · refine ⟨?_, ?_, ?_, ?_, ?_, ?_, .inr (.inr (.inr (byte_pair_le _ _))), .inl ?_, .inl ?_, .inl ?_⟩
    any_goals (simp only; rw [h]; rfl)
    simp only [List.length_dropLast]; omega

/-- A body that changes the stack and, as well, registers and flags. -/
theorem Completed.ofStack {i : Instr} {s u : State}
    (h : u = { s.advance with a := u.a, x := u.x, y := u.y, flags := u.flags, stack := u.stack })
    (hlen : u.stack.length ≤ s.stack.length + 2 ∨ u.stack.length ≤ 255) : Completed i s u := by
  refine ⟨?_, ?_, ?_, ?_, ?_, ?_, .inl ?_, hlen, .inl ?_, .inl ?_⟩ <;> (rw [h]; rfl)

theorem does_selectedBranch (t : Nat) (s : State) : Does (.branch t) s (selectedBranch t s.advance) := by
  have hc : ∀ c, Completed (.branch t) s (recordedBranch c t s.advance) := fun c =>
    let h := completed_branchOn (i := .branch t) (s := s) c (t := t) rfl
    ⟨h.bsel, h.ticks, h.status, h.program, h.budget, h.cfg, h.pc, h.depth, h.vars, .inr rfl⟩
  unfold selectedBranch
  split
  · next hb => exact .inr ⟨_, rfl, .inr ⟨rfl, hb, rfl⟩⟩
  · exact .inl ⟨_, rfl, hc _⟩
  · exact .inl ⟨_, rfl, hc _⟩

/-! ### Every instruction -/

/-- Every instruction is one tick around a body, and the body does what `Does` allows. -/
theorem exec_body (i : Instr) (s : State) : ∃ body, exec i s = oneTick body s ∧ Does i s (body s.advance) := by
  cases i <;> simp only [exec] <;>
    first | refine ⟨_, rfl, ?_⟩ | refine ⟨_, plainTick_oneTick _ _, ?_⟩
  case jsr t =>
    refine .inl ⟨_, rfl, rfl, rfl, rfl, rfl, rfl, rfl, .inr (.inl rfl), .inl ?_, .inl rfl, .inl rfl⟩
    simp [callTo, pushReturn_stack]
  case jmp t =>
    exact .inl ⟨_, rfl, rfl, rfl, rfl, rfl, rfl, rfl, .inr (.inl rfl), .inl (Nat.le_add_right _ _), .inl rfl, .inl rfl⟩
  case rts => exact .inl ⟨_, rfl, completed_doReturn rfl (Nat.le_refl _)⟩
  case rti => exact .inl ⟨_, rfl, completed_doReturn rfl (by simp [State.advance])⟩
  case branch t => exact does_selectedBranch t s
  case txs => exact .inl ⟨_, rfl, .ofStack rfl (.inr (by simp only [resize_length]; omega))⟩
  case pha => exact .inl ⟨_, rfl, .ofStack rfl (.inl (by simp))⟩
  case php => exact .inl ⟨_, rfl, .ofStack rfl (.inl (by simp))⟩
  case pla => exact .inl ⟨_, rfl, .ofStack rfl (.inl (by simp; omega))⟩
  case plp => exact .inl ⟨_, rfl, .ofStack rfl (.inl (by simp; omega))⟩
  case inx | iny | dex | dey | tax | tay | txa | tya | tsx | clc | sec | clv | cld | cli | sei | sed | nop =>
    exact .inl ⟨_, rfl, .ofRegisters rfl⟩
  case bcc | bcs | beq | bne | bmi | bpl | bvc | bvs => exact .inl ⟨_, rfl, completed_branchOn _ rfl⟩
  case staZp | staAbs | stxZp | stxAbs | styZp | styAbs => exact does_store _ rfl
  case aslAcc | lsrAcc | rolAcc | rorAcc => exact does_modify (p := .acc) (fun _ h => by cases h)
  case aslZp k | aslAbs k | lsrZp k | lsrAbs k | rolZp k | rolAbs k | rorZp k | rorAbs k | incZp k | incAbs k | decZp k
      | decAbs k =>
    exact does_modify (p := .var k) (fun _ h => by cases h; rfl)
  case adcImm | sbcImm | andImm | oraImm | eorImm | cmpImm | cpxImm | cpyImm | ldaImm | ldxImm | ldyImm =>
    exact does_withOperand (o := .imm _) (fun _ h => by cases h) (fun _ => rfl)
  all_goals exact does_withOperand (o := .var _) (fun _ h => by cases h; rfl) (fun _ => rfl)

/-- Every instruction answers a next state. -/
theorem exec_answers (i : Instr) (s : State) : ∃ t, exec i s = .next t := by
  obtain ⟨body, h, -⟩ := exec_body i s
  exact h ▸ oneTick_answers body s

/-- What an instruction can do: complete, its tick counted, or take a fault in the state before it. -/
theorem exec_cases {i : Instr} {s t : State} (h : exec i s = .next t) :
    (∃ u, Completed i s u ∧ t = u.countTick) ∨ (∃ e, MayRaise i s e ∧ t = s.takeFault e) := by
  obtain ⟨body, hb, hd⟩ := exec_body i s
  rw [hb] at h
  rcases oneTick_cases h with ⟨u, hu, ht⟩ | ⟨e, he, ht⟩ <;> rcases hd with ⟨u', hu', hc⟩ | ⟨e', he', hm⟩
  · rw [hu] at hu'; cases hu'; exact .inl ⟨u, hc, ht⟩
  · rw [hu] at he'; cases he'
  · rw [he] at hu'; cases hu'
  · rw [he] at he'; cases he'; exact .inr ⟨e, hm, ht⟩

/-- What a step can do: run the decoded instruction, take the fault of an illegal record, or end the run. -/
theorem step_cases {s t : State} (h : step s = .next t) :
    s.status = .ready ∧
    ((s.program.length ≤ s.pc ∧ t = { s with status := .completed }) ∨
     (s.pc < s.program.length ∧ s.budget ≤ s.ticks ∧ t = { s with status := .incomplete }) ∨
     (∃ r, s.program[s.pc]? = some r ∧ s.ticks < s.budget ∧
       ((∃ i, decode r.raw = .ok i ∧ exec i s = .next t) ∨
        (∃ e, decode r.raw = .error e ∧ t = s.takeFault ⟨.illegalInstruction, none⟩)))) := by
  unfold step at h
  rcases fetch_cases s with ⟨-, hf⟩ | ⟨hs, hp, hf⟩ | ⟨hs, hp, hb, hf⟩ | ⟨r, hs, hr, hb, ⟨i, hd, hf⟩ | ⟨e, hd, hf⟩⟩ <;>
    simp only [hf] at h
  · cases h
  · cases h; exact ⟨hs, .inl ⟨hp, rfl⟩⟩
  · cases h; exact ⟨hs, .inr (.inl ⟨hp, hb, rfl⟩)⟩
  · exact ⟨hs, .inr (.inr ⟨r, hr, hb, .inl ⟨i, hd, h⟩⟩)⟩
  · cases h; exact ⟨hs, .inr (.inr ⟨r, hr, hb, .inr ⟨e, hd, rfl⟩⟩)⟩

end Sys2Proof.Machine
end

