-- ==== Sys2Proof/Laws/PerInstr.lean ====
section
/-! SUPPORT. Statements made per instruction: one family, one lemma per constructor. -/

namespace Sys2Proof.Laws.LegalPair

/-- The tag the encoder gives an instruction is the tag of its (mnemonic, mode) pair in the table of 30_encoding.md R314, and
the pair is legal (R312). -/
def Statement (i : Instr) : Prop :=
  legalPair i.mnemonic i.mode = true ∧ tagOf i.mnemonic i.mode = some (encodeTag i)

theorem adcImm (v : Int) : Statement (.adcImm v) := ⟨rfl, rfl⟩
theorem adcZp (k : Key) : Statement (.adcZp k) := ⟨rfl, rfl⟩
theorem adcAbs (k : Key) : Statement (.adcAbs k) := ⟨rfl, rfl⟩
theorem sbcImm (v : Int) : Statement (.sbcImm v) := ⟨rfl, rfl⟩
theorem sbcZp (k : Key) : Statement (.sbcZp k) := ⟨rfl, rfl⟩
theorem sbcAbs (k : Key) : Statement (.sbcAbs k) := ⟨rfl, rfl⟩
theorem andImm (v : Int) : Statement (.andImm v) := ⟨rfl, rfl⟩
theorem andZp (k : Key) : Statement (.andZp k) := ⟨rfl, rfl⟩
theorem andAbs (k : Key) : Statement (.andAbs k) := ⟨rfl, rfl⟩
theorem oraImm (v : Int) : Statement (.oraImm v) := ⟨rfl, rfl⟩
theorem oraZp (k : Key) : Statement (.oraZp k) := ⟨rfl, rfl⟩
theorem oraAbs (k : Key) : Statement (.oraAbs k) := ⟨rfl, rfl⟩
theorem eorImm (v : Int) : Statement (.eorImm v) := ⟨rfl, rfl⟩
theorem eorZp (k : Key) : Statement (.eorZp k) := ⟨rfl, rfl⟩
theorem eorAbs (k : Key) : Statement (.eorAbs k) := ⟨rfl, rfl⟩
theorem bitZp (k : Key) : Statement (.bitZp k) := ⟨rfl, rfl⟩
theorem bitAbs (k : Key) : Statement (.bitAbs k) := ⟨rfl, rfl⟩
theorem aslAcc : Statement .aslAcc := ⟨rfl, rfl⟩
theorem aslZp (k : Key) : Statement (.aslZp k) := ⟨rfl, rfl⟩
theorem aslAbs (k : Key) : Statement (.aslAbs k) := ⟨rfl, rfl⟩
theorem lsrAcc : Statement .lsrAcc := ⟨rfl, rfl⟩
theorem lsrZp (k : Key) : Statement (.lsrZp k) := ⟨rfl, rfl⟩
theorem lsrAbs (k : Key) : Statement (.lsrAbs k) := ⟨rfl, rfl⟩
theorem rolAcc : Statement .rolAcc := ⟨rfl, rfl⟩
theorem rolZp (k : Key) : Statement (.rolZp k) := ⟨rfl, rfl⟩
theorem rolAbs (k : Key) : Statement (.rolAbs k) := ⟨rfl, rfl⟩
theorem rorAcc : Statement .rorAcc := ⟨rfl, rfl⟩
theorem rorZp (k : Key) : Statement (.rorZp k) := ⟨rfl, rfl⟩
theorem rorAbs (k : Key) : Statement (.rorAbs k) := ⟨rfl, rfl⟩
theorem cmpImm (v : Int) : Statement (.cmpImm v) := ⟨rfl, rfl⟩
theorem cmpZp (k : Key) : Statement (.cmpZp k) := ⟨rfl, rfl⟩
theorem cmpAbs (k : Key) : Statement (.cmpAbs k) := ⟨rfl, rfl⟩
theorem cpxImm (v : Int) : Statement (.cpxImm v) := ⟨rfl, rfl⟩
theorem cpxZp (k : Key) : Statement (.cpxZp k) := ⟨rfl, rfl⟩
theorem cpxAbs (k : Key) : Statement (.cpxAbs k) := ⟨rfl, rfl⟩
theorem cpyImm (v : Int) : Statement (.cpyImm v) := ⟨rfl, rfl⟩
theorem cpyZp (k : Key) : Statement (.cpyZp k) := ⟨rfl, rfl⟩
theorem cpyAbs (k : Key) : Statement (.cpyAbs k) := ⟨rfl, rfl⟩
theorem incZp (k : Key) : Statement (.incZp k) := ⟨rfl, rfl⟩
theorem incAbs (k : Key) : Statement (.incAbs k) := ⟨rfl, rfl⟩
theorem decZp (k : Key) : Statement (.decZp k) := ⟨rfl, rfl⟩
theorem decAbs (k : Key) : Statement (.decAbs k) := ⟨rfl, rfl⟩
theorem inx : Statement .inx := ⟨rfl, rfl⟩
theorem iny : Statement .iny := ⟨rfl, rfl⟩
theorem dex : Statement .dex := ⟨rfl, rfl⟩
theorem dey : Statement .dey := ⟨rfl, rfl⟩
theorem bcc (t : Nat) : Statement (.bcc t) := ⟨rfl, rfl⟩
theorem bcs (t : Nat) : Statement (.bcs t) := ⟨rfl, rfl⟩
theorem beq (t : Nat) : Statement (.beq t) := ⟨rfl, rfl⟩
theorem bne (t : Nat) : Statement (.bne t) := ⟨rfl, rfl⟩
theorem bmi (t : Nat) : Statement (.bmi t) := ⟨rfl, rfl⟩
theorem bpl (t : Nat) : Statement (.bpl t) := ⟨rfl, rfl⟩
theorem bvc (t : Nat) : Statement (.bvc t) := ⟨rfl, rfl⟩
theorem bvs (t : Nat) : Statement (.bvs t) := ⟨rfl, rfl⟩
theorem jmp (t : Nat) : Statement (.jmp t) := ⟨rfl, rfl⟩
theorem jsr (t : Nat) : Statement (.jsr t) := ⟨rfl, rfl⟩
theorem rts : Statement .rts := ⟨rfl, rfl⟩
theorem rti : Statement .rti := ⟨rfl, rfl⟩
theorem branch (t : Nat) : Statement (.branch t) := ⟨rfl, rfl⟩
theorem pha : Statement .pha := ⟨rfl, rfl⟩
theorem pla : Statement .pla := ⟨rfl, rfl⟩
theorem php : Statement .php := ⟨rfl, rfl⟩
theorem plp : Statement .plp := ⟨rfl, rfl⟩
theorem tax : Statement .tax := ⟨rfl, rfl⟩
theorem tay : Statement .tay := ⟨rfl, rfl⟩
theorem txa : Statement .txa := ⟨rfl, rfl⟩
theorem tya : Statement .tya := ⟨rfl, rfl⟩
theorem tsx : Statement .tsx := ⟨rfl, rfl⟩
theorem txs : Statement .txs := ⟨rfl, rfl⟩
theorem clc : Statement .clc := ⟨rfl, rfl⟩
theorem sec : Statement .sec := ⟨rfl, rfl⟩
theorem clv : Statement .clv := ⟨rfl, rfl⟩
theorem cld : Statement .cld := ⟨rfl, rfl⟩
theorem cli : Statement .cli := ⟨rfl, rfl⟩
theorem sei : Statement .sei := ⟨rfl, rfl⟩
theorem sed : Statement .sed := ⟨rfl, rfl⟩
theorem nop : Statement .nop := ⟨rfl, rfl⟩
theorem ldaImm (v : Int) : Statement (.ldaImm v) := ⟨rfl, rfl⟩
theorem ldaZp (k : Key) : Statement (.ldaZp k) := ⟨rfl, rfl⟩
theorem ldaAbs (k : Key) : Statement (.ldaAbs k) := ⟨rfl, rfl⟩
theorem ldxImm (v : Int) : Statement (.ldxImm v) := ⟨rfl, rfl⟩
theorem ldxZp (k : Key) : Statement (.ldxZp k) := ⟨rfl, rfl⟩
theorem ldxAbs (k : Key) : Statement (.ldxAbs k) := ⟨rfl, rfl⟩
theorem ldyImm (v : Int) : Statement (.ldyImm v) := ⟨rfl, rfl⟩
theorem ldyZp (k : Key) : Statement (.ldyZp k) := ⟨rfl, rfl⟩
theorem ldyAbs (k : Key) : Statement (.ldyAbs k) := ⟨rfl, rfl⟩
theorem staZp (k : Key) : Statement (.staZp k) := ⟨rfl, rfl⟩
theorem staAbs (k : Key) : Statement (.staAbs k) := ⟨rfl, rfl⟩
theorem stxZp (k : Key) : Statement (.stxZp k) := ⟨rfl, rfl⟩
theorem stxAbs (k : Key) : Statement (.stxAbs k) := ⟨rfl, rfl⟩
theorem styZp (k : Key) : Statement (.styZp k) := ⟨rfl, rfl⟩
theorem styAbs (k : Key) : Statement (.styAbs k) := ⟨rfl, rfl⟩

end Sys2Proof.Laws.LegalPair
end

