-- ==== Sys2Proof/Tests/Slice0.lean ====
section
/-! SUPPORT. The model's own tests. Words come from the encodings of 30_encoding.md R314, steps from the vectors of
95_test_vectors.md (the id is in the docstring), and each obligation with hypotheses has a state that meets them. -/

namespace Sys2Proof.Tests

open Machine

/-! ### WellFormed: ill-formed terms are refused -/

theorem test_wf_number_key : Key.wf (.num (-3)) = true := by decide
theorem test_wf_name_key : Key.wf (.name ['@', '_', 'a', '9']) = true := by decide
theorem test_ill_empty_name : Key.wf (.name []) = false := by decide
theorem test_ill_name_starting_with_digit : Key.wf (.name ['9', 'a']) = false := by decide
theorem test_ill_name_with_other_character : Key.wf (.name ['a', '-']) = false := by decide
theorem test_ill_offset_zero : Key.wf (.nameOff ['t'] 0) = false := by decide
theorem test_ill_offset_name : Key.wf (.nameOff ['#'] 1) = false := by decide
theorem test_ill_instruction : Instr.wf (.ldaAbs (.nameOff ['t'] 0)) = false := by decide
theorem test_target_at_end : Instr.wfIn 3 (.jmp 3) = true := by decide
theorem test_ill_target_past_end : Instr.wfIn 3 (.jmp 4) = false := by decide

/-- A Program is refused for an illegal tag, for an operand of another kind, for an ill-formed key and for a target past N. -/
theorem test_ill_programs :
    ([[⟨1, ⟨0xFF#8, .none⟩⟩], [⟨1, ⟨0xEA#8, .imm 0⟩⟩], [⟨1, ⟨0xA9#8, .key (.num 0)⟩⟩], [⟨1, ⟨0xAD#8, .key (.name [])⟩⟩],
      [⟨1, ⟨0x4C#8, .index 2⟩⟩]] : List Program).map wellFormedProgram = [false, false, false, false, false] := by decide

/-- Program length is at most 65535 (30_encoding.md R307). -/
theorem test_ill_program_too_long (p : Program) (h : p.length = 65536) : wellFormedProgram p = false := by
  simp [wellFormedProgram, maxProgramLength, h]

theorem test_wf_program : wellFormedProgram [⟨1, ⟨0x4C#8, .index 1⟩⟩] = true := by decide

/-! ### Decode -/

/-- Every row of 40_arithmetic.md, its word from the encodings of 30_encoding.md R314. -/
theorem test_decode_arithmetic :
    ([
      0b01101001, 0b01100101, 0b01101101, 0b11101001, 0b11100101, 0b11101101].map (decodeTableWord 8)) =
    ([
      .adcImm 0, .adcZp (.num 0), .adcAbs (.num 0), .sbcImm 0, .sbcZp (.num 0), .sbcAbs (.num 0)] : List Instr).map some := by decide

/-- Every row of 41_logical.md, its word from the encodings of 30_encoding.md R314. -/
theorem test_decode_logical :
    ([
      0b00101001, 0b00100101, 0b00101101, 0b00001001, 0b00000101, 0b00001101, 0b01001001, 0b01000101,
      0b01001101, 0b00100100, 0b00101100].map (decodeTableWord 8)) =
    ([
      .andImm 0, .andZp (.num 0), .andAbs (.num 0), .oraImm 0, .oraZp (.num 0), .oraAbs (.num 0), .eorImm 0,
      .eorZp (.num 0), .eorAbs (.num 0), .bitZp (.num 0), .bitAbs (.num 0)] : List Instr).map some := by decide

/-- Every row of 42_shift_rotate.md, its word from the encodings of 30_encoding.md R314. -/
theorem test_decode_shift_rotate :
    ([
      0b00001010, 0b00000110, 0b00001110, 0b01001010, 0b01000110, 0b01001110, 0b00101010, 0b00100110,
      0b00101110, 0b01101010, 0b01100110, 0b01101110].map (decodeTableWord 8)) =
    ([
      .aslAcc, .aslZp (.num 0), .aslAbs (.num 0), .lsrAcc, .lsrZp (.num 0), .lsrAbs (.num 0), .rolAcc,
      .rolZp (.num 0), .rolAbs (.num 0), .rorAcc, .rorZp (.num 0), .rorAbs (.num 0)] : List Instr).map some := by decide

/-- Every row of 43_compare.md, its word from the encodings of 30_encoding.md R314. -/
theorem test_decode_compare :
    ([
      0b11001001, 0b11000101, 0b11001101, 0b11100000, 0b11100100, 0b11101100, 0b11000000, 0b11000100,
      0b11001100].map (decodeTableWord 8)) =
    ([
      .cmpImm 0, .cmpZp (.num 0), .cmpAbs (.num 0), .cpxImm 0, .cpxZp (.num 0), .cpxAbs (.num 0), .cpyImm 0,
      .cpyZp (.num 0), .cpyAbs (.num 0)] : List Instr).map some := by decide

/-- Every row of 44_inc_dec.md, its word from the encodings of 30_encoding.md R314. -/
theorem test_decode_inc_dec :
    ([
      0b11100110, 0b11101110, 0b11000110, 0b11001110, 0b11101000, 0b11001000, 0b11001010, 0b10001000].map (decodeTableWord 8)) =
    ([
      .incZp (.num 0), .incAbs (.num 0), .decZp (.num 0), .decAbs (.num 0), .inx, .iny, .dex, .dey] : List Instr).map some := by decide

/-- Every row of 45_control.md, its word from the encodings of 30_encoding.md R314. -/
theorem test_decode_control :
    ([
      0b10010000, 0b10110000, 0b11110000, 0b11010000, 0b00110000, 0b00010000, 0b01010000, 0b01110000,
      0b01001100, 0b00100000, 0b01100000, 0b01000000, 0b00000010].map (decodeTableWord 8)) =
    ([
      .bcc 0, .bcs 0, .beq 0, .bne 0, .bmi 0, .bpl 0, .bvc 0, .bvs 0, .jmp 0, .jsr 0, .rts, .rti, .branch 0] : List Instr).map some := by decide

/-- Every row of 46_stack_transfer.md, its word from the encodings of 30_encoding.md R314. -/
theorem test_decode_stack_transfer :
    ([
      0b01001000, 0b01101000, 0b00001000, 0b00101000, 0b10101010, 0b10101000, 0b10001010, 0b10011000,
      0b10111010, 0b10011010].map (decodeTableWord 8)) =
    ([
      .pha, .pla, .php, .plp, .tax, .tay, .txa, .tya, .tsx, .txs] : List Instr).map some := by decide

/-- Every row of 47_flags_nop.md, its word from the encodings of 30_encoding.md R314. -/
theorem test_decode_flags_nop :
    ([
      0b00011000, 0b00111000, 0b10111000, 0b11011000, 0b01011000, 0b01111000, 0b11111000, 0b11101010].map (decodeTableWord 8)) =
    ([
      .clc, .sec, .clv, .cld, .cli, .sei, .sed, .nop] : List Instr).map some := by decide

/-- Every row of 48_load_store.md, its word from the encodings of 30_encoding.md R314. -/
theorem test_decode_load_store :
    ([
      0b10101001, 0b10100101, 0b10101101, 0b10100010, 0b10100110, 0b10101110, 0b10100000, 0b10100100,
      0b10101100, 0b10000101, 0b10001101, 0b10000110, 0b10001110, 0b10000100, 0b10001100].map (decodeTableWord 8)) =
    ([
      .ldaImm 0, .ldaZp (.num 0), .ldaAbs (.num 0), .ldxImm 0, .ldxZp (.num 0), .ldxAbs (.num 0), .ldyImm 0,
      .ldyZp (.num 0), .ldyAbs (.num 0), .staZp (.num 0), .staAbs (.num 0), .stxZp (.num 0), .stxAbs (.num 0),
      .styZp (.num 0), .styAbs (.num 0)] : List Instr).map some := by decide

/-- Tags outside R314, and words of another width or too large for it, are refused. -/
theorem test_decode_illegal :
    [decodeTableWord 8 0x00, decodeTableWord 8 0x01, decodeTableWord 8 0x03, decodeTableWord 8 0x6C, decodeTableWord 8 0xFF,
      decodeTableWord 16 0x69, decodeTableWord 8 0x169] = [none, none, none, none, none, none, none] := by decide

/-- Refused by name. -/
theorem test_decode_illegal_tag_named : decode ⟨0x80#8, .none⟩ = .error (.illegalTag 0x80#8) := by rfl

/-- An operand of another kind than the tag's format takes (R305). -/
theorem test_decode_wrong_operand_named : decode ⟨0x69#8, .none⟩ = .error (.wrongOperand 0x69#8) := by rfl

/-- Operands are kept: a signed offset, a negative immediate, a target. -/
theorem test_decode_keeps_operands :
    [(decode ⟨0x8C#8, .key (.nameOff ['t'] (-1))⟩).toOption, (decode ⟨0x69#8, .imm (-256)⟩).toOption,
      (decode ⟨0xD0#8, .index 65535⟩).toOption] =
    [some (.styAbs (.nameOff ['t'] (-1))), some (.adcImm (-256)), some (.bne 65535)] := by decide

/-! ### One step -/

/-- `v`, the variable of the vectors. -/
def v : Key := .name ['v']

/-- The names of the reserved variables in these tests. -/
def names : Config := ⟨some (.name ['b', 't']), some (.name ['b', 'k'])⟩

/-- The state before a vector: ten records, `i` at index `p` and `nop` elsewhere, and `pc = p`. -/
def before (p : Nat) (i : Instr) : State :=
  { State.reset with
    program := ((List.replicate 10 Instr.nop).set p i).map fun j => ⟨0, encode j⟩
    cfg := names
    pc := p }

/-- What a step leaves, seen through `f`. -/
def seen {α : Type} (s : State) (f : State → α) : Option α :=
  match step s with
  | .next t => some (f t)
  | .fault _ => none
  | .refused _ => none

/-- The flags in the order of the vectors, 1 for set. -/
def czvn (t : State) : List Nat := [b2i t.flags.c, b2i t.flags.z, b2i t.flags.v, b2i t.flags.n]

/-- Flags in the order of the vectors. -/
def fl (c z o n : Nat) : Flags := ⟨c == 1, z == 1, o == 1, n == 1⟩

/-- V-A1. -/
theorem test_adc_overflow : seen { before 0 (.adcImm 1) with a := 0x7F#8 } (fun t => (t.a, t.pc, czvn t)) =
    some (0x80#8, 1, [0, 0, 1, 1]) := by decide

/-- V-A7: the operand -256 folds to 0. -/
theorem test_adc_folds_operand : seen { before 0 (.adcImm (-256)) with a := 5#8, flags := fl 1 0 0 0 } (fun t => (t.a, t.pc, czvn t)) =
    some (6#8, 1, [0, 0, 0, 0]) := by decide

/-- V-S2. -/
theorem test_sbc_borrow : seen { before 0 (.sbcImm 5) with a := 5#8 } (fun t => (t.a, t.pc, czvn t)) =
    some (0xFF#8, 1, [0, 0, 0, 1]) := by decide

/-- V-S4. -/
theorem test_sbc_overflow : seen { before 0 (.sbcImm 1) with a := 0x80#8, flags := fl 1 0 0 0 } (fun t => (t.a, t.pc, czvn t)) =
    some (0x7F#8, 1, [1, 0, 1, 0]) := by decide

/-- V-L2: C and V untouched. -/
theorem test_and : seen { before 0 (.andImm 0) with a := 0xFF#8, flags := fl 1 0 1 0 } (fun t => (t.a, t.pc, czvn t)) =
    some (0#8, 1, [1, 1, 1, 0]) := by decide

/-- V-L4. -/
theorem test_ora : seen { before 0 (.oraImm 0x80) with a := 1#8 } (fun t => (t.a, t.pc, czvn t)) =
    some (0x81#8, 1, [0, 0, 0, 1]) := by decide

/-- V-L8. -/
theorem test_eor : seen { before 0 (.eorAbs v) with a := 0x33#8, vars := [(v, 51)] } (fun t => (t.a, t.pc, czvn t)) =
    some (0#8, 1, [0, 1, 0, 0]) := by decide

/-- V-B1. -/
theorem test_bit : seen { before 0 (.bitAbs v) with a := 1#8, vars := [(v, 192)] } (fun t => (t.a, t.pc, czvn t)) =
    some (1#8, 1, [0, 1, 1, 1]) := by decide

/-- V-B4: the seeded slot keeps 384. -/
theorem test_bit_keeps_slot : seen { before 0 (.bitAbs v) with a := 0x80#8, vars := [(v, 384)] } (fun t => (t.vars, czvn t)) =
    some ([(v, 384)], [0, 0, 0, 1]) := by decide

/-- V-H3: the old C is not shifted in. -/
theorem test_asl : seen { before 0 .aslAcc with a := 0x40#8, flags := fl 1 0 0 0 } (fun t => (t.a, t.pc, czvn t)) =
    some (0x80#8, 1, [0, 0, 0, 1]) := by decide

/-- V-H4. -/
theorem test_asl_slot : seen { before 0 (.aslAbs v) with vars := [(v, 255)] } (fun t => (t.a, t.vars, czvn t)) =
    some (0#8, [(v, 254)], [1, 0, 0, 1]) := by decide

/-- V-H6: N is always 0. -/
theorem test_lsr : seen { before 0 .lsrAcc with a := 0xFF#8 } (fun t => (t.a, t.pc, czvn t)) =
    some (0x7F#8, 1, [1, 0, 0, 0]) := by decide

/-- V-H7. -/
theorem test_lsr_slot : seen { before 0 (.lsrAbs v) with vars := [(v, 3)] } (fun t => (t.vars, czvn t)) =
    some ([(v, 1)], [1, 0, 0, 0]) := by decide

/-- V-H8. -/
theorem test_rol : seen { before 0 .rolAcc with a := 0x40#8, flags := fl 1 0 0 0 } (fun t => (t.a, t.pc, czvn t)) =
    some (0x81#8, 1, [0, 0, 0, 1]) := by decide

/-- V-H12. -/
theorem test_ror : seen { before 0 .rorAcc with flags := fl 1 0 0 0 } (fun t => (t.a, t.pc, czvn t)) =
    some (0x80#8, 1, [0, 0, 0, 1]) := by decide

/-- V-H14: an absent slot is created. -/
theorem test_ror_creates_slot : seen { before 0 (.rorAbs v) with flags := fl 1 0 0 0 } (fun t => (t.vars, czvn t)) =
    some ([(v, 128)], [0, 0, 0, 1]) := by decide

/-- V-C2. -/
theorem test_cmp : seen (before 0 (.cmpImm 0x80)) (fun t => (t.a, t.pc, czvn t)) =
    some (0#8, 1, [0, 0, 0, 1]) := by decide

/-- V-C5. -/
theorem test_cmp_keeps_v : seen { before 0 (.cmpImm 0x10) with a := 0x20#8, flags := fl 0 0 1 0 } (fun t => (t.a, t.pc, czvn t)) =
    some (0x20#8, 1, [1, 0, 1, 0]) := by decide

/-- V-C6. -/
theorem test_cpx : seen { before 0 (.cpxImm 0x20) with x := 0x10#8 } (fun t => (t.x, czvn t)) =
    some (0x10#8, [0, 0, 0, 1]) := by decide

/-- V-C7: no slot is created. -/
theorem test_cpx_absent : seen (before 0 (.cpxAbs v)) (fun t => (t.vars, czvn t)) =
    some ([], [1, 1, 0, 0]) := by decide

/-- V-C8. -/
theorem test_cpy : seen { before 0 (.cpyImm 0x10) with y := 0x30#8 } (fun t => (t.y, czvn t)) =
    some (0x30#8, [1, 0, 0, 0]) := by decide

/-- V-I4: 300 folds before the increment. -/
theorem test_inc_seeded : seen { before 0 (.incAbs v) with vars := [(v, 300)] } (fun t => (t.vars, czvn t)) =
    some ([(v, 45)], [0, 0, 0, 0]) := by decide

/-- V-I5: the seeded -1 folds to 255. -/
theorem test_inc_wraps : seen { before 0 (.incAbs v) with vars := [(v, -1)] } (fun t => (t.vars, czvn t)) =
    some ([(v, 0)], [0, 1, 0, 0]) := by decide

/-- V-I6. -/
theorem test_dec : seen { before 0 (.decAbs v) with vars := [(v, 0)] } (fun t => (t.vars, czvn t)) =
    some ([(v, 255)], [0, 0, 0, 1]) := by decide

/-- V-I9: C and V untouched. -/
theorem test_inx : seen { before 0 .inx with x := 0xFF#8, flags := fl 1 0 1 0 } (fun t => (t.x, t.pc, czvn t)) =
    some (0#8, 1, [1, 1, 1, 0]) := by decide

/-- V-I11. -/
theorem test_iny : seen (before 0 .iny) (fun t => (t.y, czvn t)) =
    some (1#8, [0, 0, 0, 0]) := by decide

/-- V-I13. -/
theorem test_dex : seen (before 0 .dex) (fun t => (t.x, czvn t)) =
    some (0xFF#8, [0, 0, 0, 1]) := by decide

/-- V-I15. -/
theorem test_dey : seen { before 0 .dey with y := 0x81#8 } (fun t => (t.y, czvn t)) =
    some (0x80#8, [0, 0, 0, 1]) := by decide

/-- V-J1. -/
theorem test_bcc_taken : seen (before 3 (.bcc 7)) (fun t => (t.pc, t.ticks)) =
    some (7, 1) := by decide

/-- V-J2. -/
theorem test_bcc_not_taken : seen { before 3 (.bcc 7) with flags := fl 1 0 0 0 } (fun t => (t.pc, t.ticks)) =
    some (4, 1) := by decide

/-- V-J3: backward. -/
theorem test_bcs : seen { before 3 (.bcs 0) with flags := fl 1 0 0 0 } (fun t => (t.pc, t.ticks)) =
    some (0, 1) := by decide

/-- V-J4: to itself. -/
theorem test_beq : seen { before 3 (.beq 3) with flags := fl 0 1 0 0 } (fun t => (t.pc, t.ticks)) =
    some (3, 1) := by decide

/-- V-J5. -/
theorem test_bne : seen (before 3 (.bne 10)) (fun t => (t.pc, t.ticks)) =
    some (10, 1) := by decide

/-- V-J6. -/
theorem test_bmi : seen { before 3 (.bmi 5) with flags := fl 0 0 0 1 } (fun t => (t.pc, t.ticks)) =
    some (5, 1) := by decide

/-- V-J7. -/
theorem test_bpl : seen { before 3 (.bpl 5) with flags := fl 0 0 0 1 } (fun t => (t.pc, t.ticks)) =
    some (4, 1) := by decide

/-- V-J8. -/
theorem test_bvc : seen (before 3 (.bvc 5)) (fun t => (t.pc, t.ticks)) =
    some (5, 1) := by decide

/-- V-J9. -/
theorem test_bvs : seen (before 3 (.bvs 5)) (fun t => (t.pc, t.ticks)) =
    some (4, 1) := by decide

/-- V-J11. -/
theorem test_jmp : seen (before 0 (.jmp 10)) (fun t => (t.pc, t.ticks)) =
    some (10, 1) := by decide

/-- V-J12: the high byte below the low byte. -/
theorem test_jsr : seen { before 4 (.jsr 8) with stack := [0x11#8] } (fun t => (t.pc, t.stack)) =
    some (8, [0x11#8, 0x00#8, 0x05#8]) := by decide

/-- V-J14: the lone byte stays. -/
theorem test_rts_lone_byte : seen { before 5 .rts with stack := [9#8] } (fun t => (t.pc, t.stack)) =
    some (10, [9#8]) := by decide

/-- V-J17: high byte 1, low byte 0. -/
theorem test_rts : seen { before 5 .rts with stack := [1#8, 0#8] } (fun t => (t.pc, t.stack)) =
    some (256, []) := by decide

/-- V-J18. -/
theorem test_rti : seen { before 5 .rti with stack := [0#8, 3#8, 0xC3#8] } (fun t => (t.pc, t.stack, czvn t)) =
    some (3, [], [1, 1, 1, 1]) := by decide

/-- V-J19: bits 2 to 5 are ignored. -/
theorem test_rti_then_empty : seen { before 5 .rti with stack := [0x3C#8], flags := fl 1 0 0 0 } (fun t => (t.pc, t.stack, czvn t)) =
    some (10, [], [0, 0, 0, 0]) := by decide

/-- V-BR10: taken to the next record. -/
theorem test_branch : seen { before 2 (.branch 3) with bsel := .cond .bcc } (fun t => (t.pc, t.btaken)) =
    some (3, .taken true) := by decide

/-- V-BR12: nothing changes but STATUS. -/
theorem test_branch_invalid : seen { before 2 (.branch 7) with bsel := .invalid } (fun t => (t.pc, t.btaken, t.ticks, t.status)) =
    some (2, .absent, 0, .faulted .invalidBranchSelector ⟨2, 0, none⟩) := by decide

/-- V-T1. -/
theorem test_pha : seen { before 0 .pha with a := 0x42#8 } (fun t => (t.stack, t.pc, czvn t)) =
    some ([0x42#8], 1, [0, 0, 0, 0]) := by decide

/-- V-T2. -/
theorem test_pla : seen { before 0 .pla with stack := [1#8, 0x80#8] } (fun t => (t.a, t.stack, czvn t)) =
    some (0x80#8, [1#8], [0, 0, 0, 1]) := by decide

/-- V-T3. -/
theorem test_pla_empty : seen { before 0 .pla with a := 0x55#8 } (fun t => (t.a, t.stack, czvn t)) =
    some (0#8, [], [0, 1, 0, 0]) := by decide

/-- V-T4. -/
theorem test_php : seen { before 0 .php with flags := fl 1 1 0 1 } (fun t => (t.stack, t.pc, czvn t)) =
    some ([0x83#8], 1, [1, 1, 0, 1]) := by decide

/-- V-T7: only bits 7, 6, 1 and 0 are read. -/
theorem test_plp : seen { before 0 .plp with stack := [0x3C#8], flags := fl 1 0 0 1 } (fun t => (t.stack, t.pc, czvn t)) =
    some ([], 1, [0, 0, 0, 0]) := by decide

/-- V-T6. -/
theorem test_plp_all : seen { before 0 .plp with stack := [0xFF#8] } (fun t => (t.stack, t.pc, czvn t)) =
    some ([], 1, [1, 1, 1, 1]) := by decide

/-- V-T9. -/
theorem test_tax : seen { before 0 .tax with x := 0x12#8 } (fun t => (t.x, czvn t)) =
    some (0#8, [0, 1, 0, 0]) := by decide

/-- V-T10. -/
theorem test_tay : seen { before 0 .tay with a := 0x90#8 } (fun t => (t.y, czvn t)) =
    some (0x90#8, [0, 0, 0, 1]) := by decide

/-- V-T11. -/
theorem test_txa : seen { before 0 .txa with x := 0x7F#8, a := 0x80#8 } (fun t => (t.a, czvn t)) =
    some (0x7F#8, [0, 0, 0, 0]) := by decide

/-- V-T12. -/
theorem test_tya : seen { before 0 .tya with y := 0xFF#8 } (fun t => (t.a, czvn t)) =
    some (0xFF#8, [0, 0, 0, 1]) := by decide

/-- V-T13. -/
theorem test_tsx_empty : seen (before 0 .tsx) (fun t => (t.x, czvn t)) =
    some (0xFF#8, [0, 0, 0, 1]) := by decide

/-- V-T14. -/
theorem test_tsx : seen { before 0 .tsx with stack := [0#8, 2#8] } (fun t => (t.x, czvn t)) =
    some (0xFD#8, [0, 0, 0, 1]) := by decide

/-- V-T18: padding goes on top. -/
theorem test_txs_pads : seen { before 0 .txs with x := 3#8, stack := [9#8] } (fun t => (t.stack, t.pc, czvn t)) =
    some ([9#8, 0#8, 0#8], 1, [0, 0, 0, 0]) := by decide

/-- V-T19: no flag changes. -/
theorem test_txs_truncates : seen { before 0 .txs with x := 1#8, stack := [1#8, 2#8, 3#8], flags := fl 0 0 0 1 } (fun t => (t.stack, t.pc, czvn t)) =
    some ([1#8], 1, [0, 0, 0, 1]) := by decide

/-- V-F1. -/
theorem test_clc : seen { before 0 .clc with flags := fl 1 0 0 0 } (fun t => (t.pc, czvn t)) =
    some (1, [0, 0, 0, 0]) := by decide

/-- V-F2. -/
theorem test_sec : seen (before 0 .sec) (fun t => (t.pc, czvn t)) =
    some (1, [1, 0, 0, 0]) := by decide

/-- V-F3. -/
theorem test_clv : seen { before 0 .clv with flags := fl 0 0 1 0 } (fun t => (t.pc, czvn t)) =
    some (1, [0, 0, 0, 0]) := by decide

/-- V-F4. -/
theorem test_cld : seen { before 0 .cld with a := 3#8, flags := fl 1 1 1 1 } (fun t => (t.a, t.pc, t.ticks, czvn t)) =
    some (3#8, 1, 1, [1, 1, 1, 1]) := by decide

/-- V-F5. -/
theorem test_cli : seen { before 0 .cli with a := 3#8, flags := fl 1 1 1 1 } (fun t => (t.a, t.pc, t.ticks, czvn t)) =
    some (3#8, 1, 1, [1, 1, 1, 1]) := by decide

/-- V-F5. -/
theorem test_sei : seen { before 0 .sei with a := 3#8, flags := fl 1 1 1 1 } (fun t => (t.a, t.pc, t.ticks, czvn t)) =
    some (3#8, 1, 1, [1, 1, 1, 1]) := by decide

/-- V-F5. -/
theorem test_sed : seen { before 0 .sed with a := 3#8, flags := fl 1 1 1 1 } (fun t => (t.a, t.pc, t.ticks, czvn t)) =
    some (3#8, 1, 1, [1, 1, 1, 1]) := by decide

/-- V-F6. -/
theorem test_nop : seen { before 0 .nop with a := 3#8, flags := fl 1 1 1 1 } (fun t => (t.a, t.pc, t.ticks, czvn t)) =
    some (3#8, 1, 1, [1, 1, 1, 1]) := by decide

/-- V-M4. -/
theorem test_lda : seen { before 0 (.ldaImm 256) with a := 5#8 } (fun t => (t.a, t.pc, czvn t)) =
    some (0#8, 1, [0, 1, 0, 0]) := by decide

/-- V-M5: the seeded slot keeps 300. -/
theorem test_lda_slot : seen { before 0 (.ldaAbs v) with vars := [(v, 300)] } (fun t => (t.a, t.vars, czvn t)) =
    some (0x2C#8, [(v, 300)], [0, 0, 0, 0]) := by decide

/-- V-M8. -/
theorem test_ldx : seen { before 0 (.ldxZp (.num 16)) with vars := [(.num 16, 127)] } (fun t => (t.x, czvn t)) =
    some (0x7F#8, [0, 0, 0, 0]) := by decide

/-- V-M9: separate slots. -/
theorem test_ldy : seen { before 0 (.ldyAbs (.nameOff ['t'] 2)) with vars := [(.name ['t'], 1), (.nameOff ['t'] 2, 129)] } (fun t => (t.y, czvn t)) =
    some (0x81#8, [0, 0, 0, 1]) := by decide

/-- V-M10: flags unchanged. -/
theorem test_sta : seen { before 0 (.staAbs v) with a := 0x80#8, flags := fl 0 0 0 1 } (fun t => (t.vars, czvn t)) =
    some ([(v, 128)], [0, 0, 0, 1]) := by decide

/-- V-M12. -/
theorem test_stx : seen { before 0 (.stxZp (.num 0)) with x := 0x11#8 } (fun t => (t.vars, t.pc)) =
    some ([(.num 0, 17)], 1) := by decide

/-- V-M13. -/
theorem test_sty : seen { before 0 (.styAbs (.nameOff ['t'] (-1))) with y := 0x22#8 } (fun t => (t.vars, t.pc)) =
    some ([(.nameOff ['t'] (-1), 34)], 1) := by decide

/-- P6: an access to a reserved key. -/
theorem test_reserved_key : seen { before 0 (.staZp (.name ['b', 't'])) with a := 7#8 } (fun t => (t.pc, t.ticks, t.vars, t.status)) =
    some (0, 0, [], .faulted .reservedKeyAccess ⟨0, 0, some (.name ['b', 't'])⟩) := by decide

/-- The codes of R701 -/
theorem test_fault_codes : [FaultKind.illegalInstruction, .reservedKeyAccess, .invalidBranchSelector].map FaultKind.code = [1, 2, 3] := by decide

/-- V-BR12: code 3. -/
theorem test_branch_invalid_code : seen { before 2 (.branch 7) with bsel := .invalid } (fun t => (t.status.faultCode)) =
    some (some 3) := by decide

/-- An opcode-table word placed for the fetch runs as the first instruction after reset (`lda IMM 0`: Z is set). -/
theorem test_with_fetch_word :
    seen (State.reset.withFetchWord 8 0b10101001) (fun t => (t.a, t.pc, t.ticks, czvn t)) = some (0#8, 1, 1, [0, 1, 0, 0]) := by
  decide

/-- Also where `pc` is past the Program and the run has ended. -/
theorem test_with_fetch_word_anywhere :
    seen (State.withFetchWord { State.reset with pc := 3, status := .completed, ticks := 1024 } 8 0b11101000)
      (fun t => (t.x, t.pc, t.ticks)) = some (1#8, 4, 1025) := by decide

/-- A record no decoder row spells is never executed (60_exceptions.md R712). -/
theorem test_illegal_record :
    seen { State.reset with program := [⟨4, ⟨0x00#8, .none⟩⟩] } (fun t => (t.pc, t.ticks, t.status)) =
      some (0, 0, .faulted .illegalInstruction ⟨0, 4, none⟩) := by decide

/-! ### The run and the host -/

/-- W8: a lone `rts` completes. -/
theorem test_run_rts :
    ((runInstance 1024 (newRun Config.unset [⟨1, encode .rts⟩])).toOption.map fun t => (t.status, t.ticks, t.pc)) =
      some (.completed, 1, 1) := by decide

/-- A loop uses up a budget of 3 (as W4 and P5). -/
theorem test_run_incomplete :
    ((runInstance 3 (newRun Config.unset [⟨1, encode (.jmp 0)⟩])).toOption.map fun t => (t.status, t.ticks, t.pc)) =
      some (.incomplete, 3, 0) := by decide

/-- W4: `loop: nop` and `jmp loop`. -/
theorem test_assemble_loop :
    (assemble "loop: nop\njmp loop".toList).toOption = some [⟨1, encode .nop⟩, ⟨2, encode (.jmp 0)⟩] := by decide

/-- W5: the forward reference takes the first anonymous label after the jump. -/
theorem test_assemble_anonymous :
    (assemble ":\nnop\njmp :+\n:\nnop".toList).toOption =
      some [⟨2, encode .nop⟩, ⟨3, encode (.jmp 2)⟩, ⟨5, encode .nop⟩] := by decide

/-- V-AS7, V-AS14: a sum of literals; a key with a negative offset. -/
theorem test_assemble_expressions :
    (assemble "lda #10-3+$02\nlda foo-2".toList).toOption =
      some [⟨1, encode (.ldaImm 9)⟩, ⟨2, encode (.ldaAbs (.nameOff ['f', 'o', 'o'] (-2)))⟩] := by decide

/-- V-AS5, V-AS15 and R344: a digit separator, an offset of 0, a signed bare integer. -/
theorem test_assemble_literals :
    (assemble "lda #%1010_1010\nlda foo+0\nlda -5".toList).toOption =
      some [⟨1, encode (.ldaImm 170)⟩, ⟨2, encode (.ldaAbs (.name ['f', 'o', 'o']))⟩, ⟨3, encode (.ldaAbs (.num (-5)))⟩] := by
  decide

/-- R344 and V-AS17: at most one identifier, and one signed literal after it. -/
theorem test_keys_refused :
    (["10-3", "foo+1+2", "3+foo", "foo+bar", "-foo+3", "foo+"].map fun text => keyOf text.toList) =
      [none, none, none, none, none, none] := by decide

/-- A Program of 65536 records leaves the assembler as an error at the line of the last (R307; entry 18). -/
theorem test_assemble_too_long (p : Program) (r : Record) (h : p.length = 65535) :
    withinLength (p ++ [r]) = .error ⟨r.line, .programTooLong⟩ := by
  simp [withinLength, maxProgramLength, ← h]

/-- The longest Program passes. -/
theorem test_assemble_longest (p : Program) (h : p.length = 65535) : withinLength p = .ok p := by
  simp [withinLength, maxProgramLength, ← h]

/-- V-AS18, V-AS21, W6's error case: refused. -/
theorem test_assemble_refuses :
    (["lda -foo", "sta y", "bne @x"].map fun text => (assemble text.toList).toOption) = [none, none, none] := by decide

/-- The line of an error is 1-based (30_encoding.md R346). -/
theorem test_assemble_error_line : assemble "nop\njmp nowhere".toList = .error ⟨2, .unresolvedLabel⟩ := by rfl

/-- The hypotheses on a key, each at its own key: a key that is well-formed, one that is not reserved, one that is. For
every statement over `VarForms`, `ReadForms` or `ModifyForms`: AdcAddsOperandAndCarry, SbcAddsComplementAndCarry,
AddAndSubtractArithmeticLaws, LogicCombinesOperandIntoA, BitTestsOperandOnly, ShiftsMoveOneBitThroughCarry,
ComparesOrderUnsignedBytes, IncDecReplaceSlot, LoadsPutOperandInRegister, StoresPutRegisterInSlot. -/
theorem test_witness_variable_forms :
    Key.wf (.num 0) = true ∧ Key.wf (.nameOff ['t'] (-1)) = true ∧ (before 0 .nop).reserved v = false ∧
      (before 0 .nop).reserved (.name ['b', 't']) = true ∧ (before 0 .nop).reserved (.name ['b', 'k']) = true := by decide

/-- StoresPutRegisterInSlot, IncDecReplaceSlot, SeedVarSetsOneSlot: another key. -/
theorem test_witness_OnlySlot_other_key :
    (Key.num 0) ≠ v := by decide

/-- Each branch taken and not taken. -/
theorem test_witness_BranchesFollowTheirFlag :
    [Flags.clear, fl 1 1 1 1].map (fun f => [Cond.bcc, .bcs, .beq, .bne, .bmi, .bpl, .bvc, .bvs].map fun c => c.holds f) =
      [[true, false, false, true, false, true, true, false], [false, true, true, false, true, false, false, true]] := by decide

/-- Depths 0, 1 and 2. -/
theorem test_witness_RtsPopsReturnIndex :
    ([] : List Byte).length < 2 ∧ [9#8].length < 2 ∧ [1#8, 0#8] = ([] : List Byte) ++ [1#8, 0#8] := by decide

/-- Depths 0, 1, 2 and 3. -/
theorem test_witness_RtiPopsFlagsThenReturns :
    State.reset.stack = [] ∧ [0xC3#8] = ([] : List Byte) ++ [0xC3#8] ∧ [0#8, 0xC3#8] = [0#8] ++ [0xC3#8] ∧
      [0#8, 3#8, 0xC3#8] = (([] : List Byte) ++ [0#8, 3#8]) ++ [0xC3#8] := by decide

/-- The last index whose successor is one. -/
theorem test_witness_RtsUndoesJsr :
    ({ State.reset with pc := 65534 } : State).pc + 1 ≤ 65535 := by decide

/-- The selector in each of its three cases. -/
theorem test_witness_BranchFollowsSelector :
    ({ State.reset with bsel := .invalid } : State).bsel = .invalid ∧ State.reset.bsel = .unset ∧
      ({ State.reset with bsel := .cond .bvs } : State).bsel = .cond .bvs := by decide

/-- PushAndPullA, PushAndPullFlags: an empty stack and a stack of one. -/
theorem test_witness_PushAndPull :
    State.reset.stack = [] ∧ [0x80#8] = ([] : List Byte) ++ [0x80#8] := by decide

/-- An entry kept, an entry of padding. -/
theorem test_witness_StackPointerEmulation :
    0 < (3#8 : Byte).toNat ∧ 2 < (3#8 : Byte).toNat := by decide

/-- Depth 255 is the last that changes. -/
theorem test_witness_TsxThenTxsReflectsDepth :
    (List.replicate 255 (0#8 : Byte)).length ≤ 255 := by rw [List.length_replicate]

/-- A pair of forms. -/
theorem test_witness_ZeroPageEqualsAbsolute :
    (Instr.ldaZp v).mnemonic = (Instr.ldaAbs v).mnemonic ∧ (Instr.ldaZp v).operand = (Instr.ldaAbs v).operand ∧
      (Instr.ldaZp v).mode = .zp ∧ (Instr.ldaAbs v).mode = .abs := by decide

/-- All four flags change. -/
theorem test_witness_FlagsChangeOnlyByListed :
    ∃ t, exec .plp { before 0 .plp with stack := [0xFF#8] } = .next t ∧ t.flags.c ≠ (before 0 .plp).flags.c ∧
      t.flags.v ≠ (before 0 .plp).flags.v ∧ t.flags.z ≠ (before 0 .plp).flags.z ∧ t.flags.n ≠ (before 0 .plp).flags.n := ⟨_, rfl, by decide⟩

/-- RegistersChangeOnlyByListed, RegisterWritesSetZeroAndNegative: A, X and Y change. -/
theorem test_witness_RegistersChangeOnlyByListed :
    (∃ t, exec (.ldaImm 1) State.reset = .next t ∧ t.a ≠ State.reset.a) ∧
      (∃ t, exec .aslAcc { State.reset with a := 1#8 } = .next t ∧ t.a ≠ 1#8) ∧
      (∃ t, exec .inx State.reset = .next t ∧ t.x ≠ State.reset.x) ∧
      (∃ t, exec .dey State.reset = .next t ∧ t.y ≠ State.reset.y) := ⟨⟨_, rfl, by decide⟩, ⟨_, rfl, by decide⟩, ⟨_, rfl, by decide⟩, ⟨_, rfl, by decide⟩⟩

/-- The stack changes; the record changes. -/
theorem test_witness_StackAndRecordChangeOnlyByListed :
    (∃ t, exec .pha State.reset = .next t ∧ t.stack ≠ State.reset.stack) ∧
      (∃ t, exec (.branch 0) State.reset = .next t ∧ t.btaken ≠ State.reset.btaken) := ⟨⟨_, rfl, by decide⟩, ⟨_, rfl, by decide⟩⟩

/-- A slot is created. -/
theorem test_witness_EngineStoresBytesToItsOperand :
    ∃ t, exec (.incZp v) State.reset = .next t ∧ t.vars.find? v ≠ State.reset.vars.find? v := ⟨_, rfl, by decide⟩

/-- StepKeepsProgramAndParameters, InstructionTakesOneTick: a step, an instruction. -/
theorem test_witness_StepKeepsProgramAndParameters :
    (∃ t, step (before 0 .nop) = .next t) ∧ ∃ t, exec .nop (before 0 .nop) = .next t := ⟨⟨_, rfl⟩, ⟨_, rfl⟩⟩

/-- Each of the two names, and no name. -/
theorem test_witness_ReservedKeyAlwaysFaults :
    (Instr.stxAbs (.name ['b', 't'])).operand = .key (.name ['b', 't']) ∧ (before 0 .nop).cfg.branchTypeKey = some (.name ['b', 't']) ∧
      (before 0 .nop).cfg.branchTakenKey = some (.name ['b', 'k']) ∧ State.reset.cfg.branchTypeKey = none ∧
      State.reset.cfg.branchTakenKey = none := by decide

/-- The fault is raised. -/
theorem test_witness_InvalidSelectorFaultsBranchOnly :
    ∃ t info, ({ before 2 (.branch 7) with bsel := .invalid } : State).status = .ready ∧
      exec (.branch 7) { before 2 (.branch 7) with bsel := .invalid } = .next t ∧
      t.status = .faulted .invalidBranchSelector info := ⟨_, _, rfl, rfl, rfl⟩

/-- A Program of one record that spells no instruction. -/
def oneIllegal : State := { State.reset with program := [⟨4, ⟨0x00#8, .none⟩⟩] }

/-- A record that encodes no instruction; a step of a well-formed Program. -/
theorem test_witness_IllegalRecordFaultsUnexecuted :
    oneIllegal.status = .ready ∧ oneIllegal.program[oneIllegal.pc]? = some ⟨4, ⟨0x00#8, .none⟩⟩ ∧
      oneIllegal.ticks < oneIllegal.budget ∧ (∀ i : Instr, i.wf = true → encode i ≠ ⟨0x00#8, .none⟩) ∧
      wellFormedProgram (before 0 .nop).program = true ∧ ∃ t, step (before 0 .nop) = .next t := 
  ⟨rfl, rfl, by decide, fun i _ h => by
    have h := congrArg RawInstr.tag h
    cases i <;> simp [encode, encodeTag] at h,
   by decide, _, rfl⟩

/-- A step that faults. -/
theorem test_witness_FaultsArePrecise :
    ∃ t kind info, step { before 2 (.branch 7) with bsel := .invalid } = .next t ∧ t.status = .faulted kind info := ⟨_, _, _, rfl, rfl⟩

/-- Each way a run ends. -/
theorem test_witness_EndedRunExecutesNothing :
    Status.completed ≠ .ready ∧ Status.incomplete ≠ .ready ∧ Status.faulted .reservedKeyAccess ⟨0, 0, none⟩ ≠ .ready := by decide

/-- A Program of one load, of a key that is not reserved. -/
def oneLoad : State := { State.reset with program := [⟨1, encode (.ldaAbs v)⟩], cfg := names, bsel := .cond .bvs }

/-- A whole run under its hypotheses. -/
theorem test_witness_ValidRunNeverFaults :
    oneLoad.status = .ready ∧ wellFormedProgram oneLoad.program = true ∧
      (∀ r ∈ oneLoad.program, ∀ k, r.raw.operand = .key k → oneLoad.reserved k = false) ∧ oneLoad.bsel ≠ .invalid ∧
      ∃ t, runInstance 5 oneLoad = .ok t := 
  ⟨rfl, by decide, fun r hr k hk => by
    rw [List.mem_singleton.mp hr] at hk
    cases hk
    rfl, by decide, _, rfl⟩

/-- The empty Program. -/
theorem test_witness_NewRunHasResetValues :
    ([] : Program) = [] := by decide

/-- FreshInstanceMeetsInv, AssembledProgramIsWellFormed: a well-formed Program out of the assembler. -/
theorem test_witness_FreshInstanceMeetsInv :
    ∃ p, assemble "loop: nop\njmp loop".toList = .ok p ∧ wellFormedProgram p = true := ⟨[⟨1, encode .nop⟩, ⟨2, encode (.jmp 0)⟩], by rfl, by decide⟩

/-- The invariant holds of a state that is not a reset state: a run stopped by its budget, with a slot and two bytes on the
stack. -/
def midRun : State :=
  { before 0 (.jsr 0) with
    vars := [(v, -5)], stack := [0#8, 1#8], ticks := 1, budget := 1 }

theorem test_witness_Inv : Inv midRun where
  varsCanonical := by decide
  varsKeys := by decide
  programAdmitted := by decide
  pcInRange := by decide
  ticksInBudget := by decide
  depthBounded := by decide
  completedOutside := by decide
  incompleteInside := by decide
  faultedAt := by intro kind info h; cases h
  branchPresent := by decide

/-- A step from it, and one that runs an instruction. -/
theorem test_witness_StepKeepsInv :
    (∃ t, step midRun = .next t) ∧ ∃ t, step { midRun with budget := 2 } = .next t := ⟨⟨_, rfl⟩, ⟨_, rfl⟩⟩

/-- Each operation answers; the budget covers the ticks passed. -/
theorem test_witness_HostOperationsKeepInv :
    (∃ t, seedVar v 7 State.reset = .ok t) ∧ (∃ t, setBranchSelector "beq".toList State.reset = .ok t) ∧
      midRun.ticks ≤ 4 ∧ ∃ t, runInstance 4 midRun = .ok t := ⟨⟨_, rfl⟩, ⟨_, rfl⟩, by decide, _, rfl⟩

/-- A record at `pc` of a well-formed instruction, with the last tick of the budget left. -/
theorem test_witness_StepRunsDecodedInstruction :
    ({ midRun with budget := 2 } : State).status = .ready ∧ midRun.program[midRun.pc]? = some ⟨0, encode (.jsr 0)⟩ ∧
      1 < 2 ∧ Instr.wf (.jsr 0) = true := by decide

/-- `pc` at N; `pc` in range with the budget used. -/
theorem test_witness_LoopEndSetsStatus :
    State.reset.status = .ready ∧ State.reset.program.length ≤ State.reset.pc ∧ midRun.status = .ready ∧
      midRun.pc < midRun.program.length ∧ midRun.budget ≤ midRun.ticks := by decide

/-- RunReachesAnEnd, RunIsIteratedStep: a budget just covering the ticks passed; an incomplete and a completed end. -/
theorem test_witness_RunReachesAnEnd :
    midRun.status = .ready ∧ midRun.ticks ≤ 1 ∧ (∃ t, runInstance 1 midRun = .ok t ∧ t.status = .incomplete) ∧
      ∃ t, runInstance 1 State.reset = .ok t ∧ t.status = .completed := ⟨rfl, by decide, ⟨_, rfl, rfl⟩, ⟨_, rfl, rfl⟩⟩

/-- A key that is taken, one that is ill-formed, one that is reserved. -/
theorem test_witness_SeedVarSetsOneSlot :
    (before 0 .nop).status = .ready ∧ (before 0 .nop).ticks = 0 ∧ v.wf = true ∧ (before 0 .nop).reserved v = false ∧
      Key.wf (.nameOff ['t'] 0) = false ∧ (before 0 .nop).reserved (.name ['b', 'k']) = true := by decide

/-- Other texts (70_reset_and_hazards.md R805: upper case, another mnemonic). -/
theorem test_witness_SetBranchSelectorNamesCondition :
    State.reset.status = .ready ∧ State.reset.ticks = 0 ∧
      "BEQ".toList ∉ (["bcc", "bcs", "beq", "bne", "bmi", "bpl", "bvc", "bvs"] : List String).map String.toList ∧
      "jmp".toList ∉ (["bcc", "bcs", "beq", "bne", "bmi", "bpl", "bvc", "bvs"] : List String).map String.toList := by decide

/-- A store in the canonical form, found by its keys. -/
theorem test_witness_CanonicalStoresAreEqualData :
    Memory.wf [(.num 0, 0), (v, -5), (.nameOff ['t'] 1, 2)] = true ∧ Memory.wf [(v, -5), (.num 0, 0)] = false := by decide

/-- Well-formed instructions of each format. -/
theorem test_witness_DecodeInvertsEncode :
    Instr.wf .nop = true ∧ Instr.wf (.adcImm (-1)) = true ∧ Instr.wf (.ldaAbs (.nameOff ['t'] 2)) = true ∧
      Instr.wf (.jmp 65535) = true := by decide

/-- A record that decodes. -/
theorem test_witness_EncodeInvertsDecode :
    decode ⟨0xAD#8, .key v⟩ = .ok (.ldaAbs v) := rfl

end Sys2Proof.Tests
end

section
/-! The value of a folded integer (00_scope.md R13; 92_eei_decisions.md D30). -/
namespace Sys2Proof.Machine

/-- The remainder is nonnegative for every `v`, so taking the byte as a natural number loses nothing: a negative multiple of 256
folds to 0 (D30). -/
theorem coe_toNat_fold (v : Int) : ((fold v).toNat : Int) = v % 256 := by
  have hnonneg : 0 ≤ v % 256 := Int.emod_nonneg v (by decide)
  calc ((fold v).toNat : Int)
      = ((v % 256).toNat : Int) := congrArg Nat.cast (BitVec.toNat_ofInt v)
    _ = v % 256 := Int.toNat_of_nonneg hnonneg

/-- Settles O53: the value of a folded byte, for every integer. -/
theorem foldIsRemainder256 : Obligations.FoldIsRemainder256 :=
  coe_toNat_fold

end Sys2Proof.Machine
end

section
/-! What the decoder's answer says of a record, and what a well-formed Program says of each of its records
(30_encoding.md R305 to R315, R307). -/
namespace Sys2Proof

/-- Every instruction a shape can give is encoded with the tag. -/
def Shape.EncodesTo (tag : Byte) : Shape → Prop
  | .plain i => encodeTag i = tag
  | .imm mk => ∀ v, encodeTag (mk v) = tag
  | .var mk => ∀ k, encodeTag (mk k) = tag
  | .rel mk => ∀ t, encodeTag (mk t) = tag

/-- Row by row of the table of 30_encoding.md R314, each row's tag is the one the encoder gives. -/
theorem decodeTag_encodesTo {tag : Byte} {sh : Shape} (h : decodeTag tag = some sh) : sh.EncodesTo tag := by
  unfold decodeTag at h
  split at h <;> cases h <;> simp only [Shape.EncodesTo] <;> intros <;>
    exact BitVec.eq_of_toNat_eq (‹tag.toNat = _›).symm

theorem Shape.EncodesTo.apply {tag : Byte} {sh : Shape} {o : RawOperand} {i : Instr} (hs : sh.EncodesTo tag)
    (h : sh.apply o = some i) : encodeTag i = tag := by
  unfold Shape.apply at h
  split at h
  · cases h; exact hs
  · cases h; exact hs _
  · obtain ⟨-, hi⟩ := Option.ite_none_right_eq_some.mp h
    cases hi; exact hs _
  · cases h; exact hs _
  · cases h

/-- A record's tag is the tag of the instruction it decodes to (30_encoding.md R306). -/
theorem encodeTag_of_decode {w : RawInstr} {i : Instr} (h : decode w = .ok i) : encodeTag i = w.tag := by
  unfold decode at h
  split at h
  · cases h
  · next sh hsh =>
    split at h
    · next j hj => cases h; exact (decodeTag_encodesTo hsh).apply hj
    · cases h

/-- The only tag of `branch` is 0x02 (45_control.md R520). -/
theorem tag_of_decode_branch {w : RawInstr} {i : Instr} (h : decode w = .ok i) (hi : i.mnemonic = .branch) :
    w.tag = 0x02#8 := by
  rw [← encodeTag_of_decode h]
  cases i with
  | branch t => rfl
  | _ => cases hi

theorem length_le_of_wellFormedProgram {p : Program} (h : wellFormedProgram p = true) : p.length ≤ 65535 := by
  simp only [wellFormedProgram, Bool.and_eq_true, decide_eq_true_eq] at h
  exact h.1

/-- Every record of a well-formed Program decodes to an instruction that fits it (30_encoding.md R307). -/
theorem decode_of_wellFormedProgram {p : Program} {r : Record} (h : wellFormedProgram p = true) (hr : r ∈ p) :
    ∃ i, decode r.raw = .ok i ∧ i.wfIn p.length = true := by
  simp only [wellFormedProgram, Bool.and_eq_true, List.all_eq_true] at h
  have hwf := h.2 r hr
  unfold Record.wfIn at hwf
  split at hwf
  · next i hi => exact ⟨i, hi, hwf⟩
  · cases hwf

theorem key_wf_of_wfIn {n : Nat} {i : Instr} {k : Key} (h : i.wfIn n = true) (ho : i.operand = .key k) :
    k.wf = true := by
  simp only [Instr.wfIn, Instr.wf, ho, RawOperand.wf, Bool.and_eq_true] at h
  exact h.1

theorem index_le_of_wfIn {n t : Nat} {i : Instr} (h : i.wfIn n = true) (ho : i.operand = .index t) : t ≤ n := by
  simpa [Instr.wfIn, Instr.wf, ho, RawOperand.wf, RawOperand.fits] using h

end Sys2Proof
end

section
/-! The invariant of a run is kept by each thing a step can do: the two ends of a run, a completed instruction and a fault
(60_exceptions.md R701 to R721; 70_reset_and_hazards.md R808 to R811). -/
namespace Sys2Proof.Machine

theorem State.reserved_congr {s u : State} (h : u.cfg = s.cfg) (k : Key) : u.reserved k = s.reserved k := by
  simp only [State.reserved, h]

@[simp] theorem State.countTick_reserved (s : State) (k : Key) : s.countTick.reserved k = s.reserved k := rfl

theorem inv_completed {s : State} (hi : Inv s) (hp : s.program.length ≤ s.pc) :
    Inv { s with status := .completed } :=
  { hi with
    completedOutside := fun _ => hp
    incompleteInside := nofun
    faultedAt := nofun }

theorem inv_incomplete {s : State} (hi : Inv s) (hp : s.pc < s.program.length) (hb : s.budget ≤ s.ticks) :
    Inv { s with status := .incomplete } :=
  { hi with
    completedOutside := nofun
    incompleteInside := fun _ => ⟨hp, Nat.le_antisymm hi.ticksInBudget hb⟩
    faultedAt := nofun }

/-- An instruction never raises the decoder's fault (60_exceptions.md R712). -/
theorem MayRaise.kind_ne {i : Instr} {s : State} {e : Raised} (h : MayRaise i s e) : e.kind ≠ .illegalInstruction := by
  rcases h with ⟨k, -, -, rfl⟩ | ⟨-, -, rfl⟩ <;> nofun

theorem inv_takeFault {s : State} {e : Raised} (hi : Inv s) (hp : s.pc < s.program.length) (hb : s.ticks < s.budget)
    (he : e.kind ≠ .illegalInstruction) : Inv (s.takeFault e) :=
  { hi with
    completedOutside := nofun
    incompleteInside := nofun
    faultedAt := by
      rintro kind info ⟨⟩
      exact ⟨rfl, hp, hb, he⟩ }

/-- The one slot an instruction may write has a key of the Program, which is well-formed, and not a reserved one. -/
theorem Completed.varsKeys {i : Instr} {s u : State} (hc : Completed i s u) (hi : Inv s)
    (hw : i.wfIn s.program.length = true) : ∀ e ∈ u.vars, e.1.wf = true ∧ s.reserved e.1 = false := by
  rcases hc.vars with hv | ⟨k, b, ho, hres, hv⟩ <;> rw [hv]
  · exact hi.varsKeys
  · intro e he
    rcases mem_write he with rfl | he
    · exact ⟨key_wf_of_wfIn hw ho, hres⟩
    · exact hi.varsKeys e he

theorem Completed.varsCanonical {i : Instr} {s u : State} (hc : Completed i s u) (hi : Inv s) : u.vars.wf = true := by
  rcases hc.vars with hv | ⟨k, b, -, -, hv⟩ <;> rw [hv]
  · exact hi.varsCanonical
  · exact wf_write _ _ hi.varsCanonical

/-- The next index of a well-formed Program of at most 65535 records (10_state.md R106): the successor of an index in
range, a target, N, or the index two bytes make. -/
theorem Completed.pcInRange {i : Instr} {s u : State} (hc : Completed i s u) (hi : Inv s)
    (hw : i.wfIn s.program.length = true) (hp : s.pc < s.program.length) : u.pc ≤ 65535 := by
  have hN : s.program.length ≤ 65535 := length_le_of_wellFormedProgram hi.programAdmitted
  rcases hc.pc with hpc | hpc | hpc | hpc
  · omega
  · exact (index_le_of_wfIn hw hpc).trans hN
  · exact hpc ▸ hN
  · exact hpc

/-- A completed instruction of a well-formed Program, in a tick that was allowed to start. -/
theorem inv_countTick {i : Instr} {s u : State} {r : Record} (hi : Inv s) (hc : Completed i s u)
    (hs : s.status = .ready) (hr : s.program[s.pc]? = some r) (hd : decode r.raw = .ok i)
    (hw : i.wfIn s.program.length = true) (hb : s.ticks < s.budget) : Inv u.countTick := by
  obtain ⟨hp, -⟩ := List.getElem?_eq_some_iff.mp hr
  have hready : u.countTick.status = .ready := hc.status.trans hs
  exact {
    varsCanonical := hc.varsCanonical hi
    varsKeys := fun e he => by
      rw [State.countTick_reserved, State.reserved_congr hc.cfg]
      exact hc.varsKeys hi hw e he
    programAdmitted := hc.program ▸ hi.programAdmitted
    pcInRange := hc.pcInRange hi hw hp
    ticksInBudget := by
      have := hc.ticks; have := hc.budget
      simp only [State.countTick_ticks, State.countTick_budget]; omega
    depthBounded := by
      have := hc.ticks; have := hc.depth; have := hi.depthBounded
      simp only [State.countTick_ticks, State.countTick_stack]; omega
    completedOutside := fun h => nomatch hready.symm.trans h
    incompleteInside := fun h => nomatch hready.symm.trans h
    faultedAt := fun _ _ h => nomatch hready.symm.trans h
    branchPresent := fun h => by
      simp only [State.countTick_btaken, State.countTick_program, hc.program] at h ⊢
      rcases hc.btaken with hsame | hbranch
      · exact hi.branchPresent (hsame ▸ h)
      · exact ⟨r, List.mem_of_getElem? hr, tag_of_decode_branch hd hbranch⟩ }

/-- Settles O43: by the cases of a step; the record an illegal fetch would need is in no well-formed Program. -/
theorem stepKeepsInv : Obligations.StepKeepsInv := by
  intro s t hi h
  obtain ⟨hs, ⟨hp, rfl⟩ | ⟨hp, hb, rfl⟩ | ⟨r, hr, hb, hrun⟩⟩ := step_cases h
  · exact inv_completed hi hp
  · exact inv_incomplete hi hp hb
  · obtain ⟨i, hd, hw⟩ := decode_of_wellFormedProgram hi.programAdmitted (List.mem_of_getElem? hr)
    rcases hrun with ⟨j, hj, hexec⟩ | ⟨e, he, -⟩
    · obtain rfl : i = j := Except.ok.inj (hd.symm.trans hj)
      rcases exec_cases hexec with ⟨u, hc, rfl⟩ | ⟨e, hm, rfl⟩
      · exact inv_countTick hi hc hs hr hd hw hb
      · exact inv_takeFault hi (List.getElem?_eq_some_iff.mp hr).1 hb hm.kind_ne
    · cases hd.symm.trans he

end Sys2Proof.Machine
end

section
/-! The packed flag byte (10_state.md R114, R115). -/
namespace Sys2Proof.Machine

/-- The packed byte, bit by bit from bit 0 (10_state.md R114). -/
theorem Flags.pack_eq_bits (f : Flags) :
    f.pack = BitVec.ofBoolListLE [f.c, f.z, false, false, false, false, f.v, f.n] := by
  obtain ⟨c, z, v, n⟩ := f
  revert c z v n
  decide

theorem Flags.getElem_pack (f : Flags) {i : Nat} (hi : i < 8) :
    f.pack[i] = [f.c, f.z, false, false, false, false, f.v, f.n][i] := by
  rw [← BitVec.getLsbD_eq_getElem, f.pack_eq_bits, BitVec.getLsbD_ofBoolListLE, List.getD_eq_getElem _ _ hi]

/-- Settles O52: each of the eight bits of the packed byte is a flag or 0. -/
theorem packedFlagsRoundTrip : Obligations.PackedFlagsRoundTrip := by
  refine ⟨fun f => ⟨?_, ?_⟩, fun b => ?_⟩
  · simp [Flags.unpack, Flags.getElem_pack]
  · ext i hi
    interval_cases i <;> simp [Flags.getElem_pack]
  · ext i hi
    interval_cases i <;> simp [Flags.unpack, Flags.getElem_pack]

end Sys2Proof.Machine
end

section
/-! The stack pointer emulation (46_stack_transfer.md R550, R551). -/
namespace Sys2Proof.Machine

/-- The state after `tsx`: X holds `255 - depth` folded, and the stack is as it was (R550). -/
theorem exec_tsx (s : State) :
    exec .tsx s = .next (s.advance.loadX (fold (255 - (s.stack.length : Int)))).countTick :=
  rfl

/-- The state after `txs`: the depth is X (R551). -/
theorem exec_txs (s : State) :
    exec .txs s = .next ({ s.advance with stack := resize s.stack s.x.toNat } : State).countTick :=
  rfl

/-- Settles O22: `tsx` reports `255 - d` folded, `txs` makes it the depth, and `d = 255 - d` has no solution, 255 being
odd. -/
theorem tsxThenTxsReflectsDepth : Obligations.TsxThenTxsReflectsDepth := by
  intro s
  refine ⟨_, _, exec_tsx s, exec_txs _, ?_⟩
  have hx := coe_toNat_fold (255 - (s.stack.length : Int))
  simp only [State.countTick_stack, State.countTick_x, State.loadX_stack, State.loadX_x, State.advance_stack,
    resize_length]
  omega

end Sys2Proof.Machine
end

section
/-! What an instruction may write of the registers, the flags and the stack (10_state.md R103, R104, R111, R120), said
once for all of them. -/
namespace Sys2Proof.Machine

/-- The parts of the state that an instruction may write. Z and N are always written together (00_scope.md R16). -/
structure WriteSet where
  a : Bool := false
  x : Bool := false
  y : Bool := false
  c : Bool := false
  v : Bool := false
  zn : Bool := false
  stack : Bool := false

/-- What each mnemonic writes; a shift writes A in Accumulator mode only (42_shift_rotate.md R440). -/
def writeSet (m : Mnemonic) (md : Mode) : WriteSet :=
  match m with
  | .adc | .sbc => { a := true, c := true, v := true, zn := true }
  | .and | .ora | .eor | .lda | .txa | .tya => { a := true, zn := true }
  | .pla => { a := true, zn := true, stack := true }
  | .ldx | .inx | .dex | .tax | .tsx => { x := true, zn := true }
  | .ldy | .iny | .dey | .tay => { y := true, zn := true }
  | .asl | .lsr | .rol | .ror => { a := decide (md = .acc), c := true, zn := true }
  | .bit => { v := true, zn := true }
  | .cmp | .cpx | .cpy => { c := true, zn := true }
  | .inc | .dec => { zn := true }
  | .clc | .sec => { c := true }
  | .clv => { v := true }
  | .plp | .rti => { c := true, v := true, zn := true, stack := true }
  | .pha | .php | .jsr | .rts | .txs => { stack := true }
  | .bcc | .bcs | .beq | .bne | .bmi | .bpl | .bvc | .bvs | .jmp | .branch | .cld | .cli | .sei | .sed | .nop
  | .sta | .stx | .sty => {}

/-- Z and N describe the byte (00_scope.md R16). -/
def Flags.Describes (f : Flags) (b : Byte) : Prop := f.z = decide (b = 0) ∧ f.n = decide (127 < b.toNat)

/-- From `s` to `t` nothing of the registers, the flags and the stack changed but what the set holds, and a register that
was written is described by Z and N. A field that a proof does not name is one that did not change. -/
structure WritesOnly (w : WriteSet) (s t : State) : Prop where
  a : t.a = s.a ∨ w.a = true ∧ t.flags.Describes t.a := by exact .inl rfl
  x : t.x = s.x ∨ w.x = true ∧ t.flags.Describes t.x := by exact .inl rfl
  y : t.y = s.y ∨ w.y = true ∧ t.flags.Describes t.y := by exact .inl rfl
  c : t.flags.c = s.flags.c ∨ w.c = true := by exact .inl rfl
  v : t.flags.v = s.flags.v ∨ w.v = true := by exact .inl rfl
  zn : t.flags.z = s.flags.z ∧ t.flags.n = s.flags.n ∨ w.zn = true := by exact .inl ⟨rfl, rfl⟩
  stack : t.stack = s.stack ∨ w.stack = true := by exact .inl rfl

/-! ### The frames -/

/-- A tick keeps what its body keeps; a fault is taken in the state before it (60_exceptions.md R703). -/
theorem writesOnly_oneTick {w : WriteSet} {body : State → Effect} {s t : State} (h : oneTick body s = .next t)
    (hb : ∀ u, body s.advance = .ok u → WritesOnly w s u) : WritesOnly w s t := by
  rcases oneTick_cases h with ⟨u, hu, rfl⟩ | ⟨e, -, rfl⟩
  · have hw := hb u hu
    exact ⟨hw.a, hw.x, hw.y, hw.c, hw.v, hw.zn, hw.stack⟩
  · exact {}

theorem writesOnly_plainTick {w : WriteSet} {body : State → State} {s t : State} (h : plainTick body s = .next t)
    (hb : WritesOnly w s (body s.advance)) : WritesOnly w s t :=
  writesOnly_oneTick h fun _ hu => Except.ok.inj hu ▸ hb

theorem writesOnly_withOperand {w : WriteSet} {o : Operand} {f : Byte → State → State} {s t : State}
    (h : oneTick (withOperand o f) s = .next t) (hf : ∀ m, WritesOnly w s (f m s.advance)) : WritesOnly w s t := by
  refine writesOnly_oneTick h fun u hu => ?_
  rcases withOperand_cases hu with ⟨m, -, hr⟩ | ⟨k, -, -, hr⟩
  · exact Except.ok.inj hr ▸ hf m
  · cases hr

/-- A modification of a slot changes no register. -/
theorem writesOnly_modify_var {w : WriteSet} {k : Key} {op : Byte → Flags → Byte × Flags} {s t : State}
    (h : oneTick (modify (.var k) op) s = .next t)
    (hop : ∀ m, WritesOnly w s { s with flags := (op m s.flags).2 }) : WritesOnly w s t := by
  refine writesOnly_oneTick h fun u hu => ?_
  cases hk : s.advance.reserved k
  · rw [modify_var op hk] at hu
    cases hu
    have hw := hop (fold (s.vars.read k))
    exact ⟨hw.a, hw.x, hw.y, hw.c, hw.v, hw.zn, hw.stack⟩
  · rw [modify_reserved op hk] at hu
    cases hu

theorem writesOnly_storeOp_var {k : Key} {f : State → Int} {s t : State}
    (h : oneTick (fun u => u.storeOp (.var k) (f u)) s = .next t) : WritesOnly {} s t := by
  refine writesOnly_oneTick h fun u hu => ?_
  rcases storeOp_cases hu with ⟨hp, -⟩ | ⟨j, -, -, hr⟩ | ⟨j, -, -, hr⟩
  · cases hp
  · cases hr; exact {}
  · cases hr

/-! ### The bodies -/

section
variable (s : State) (m : Byte)

theorem writesOnly_loadA : WritesOnly { a := true, zn := true } s (s.advance.loadA m) :=
  { a := .inr ⟨rfl, rfl, rfl⟩, zn := .inr rfl }

theorem writesOnly_loadX : WritesOnly { x := true, zn := true } s (s.advance.loadX m) :=
  { x := .inr ⟨rfl, rfl, rfl⟩, zn := .inr rfl }

theorem writesOnly_loadY : WritesOnly { y := true, zn := true } s (s.advance.loadY m) :=
  { y := .inr ⟨rfl, rfl, rfl⟩, zn := .inr rfl }

theorem writesOnly_addCore : WritesOnly { a := true, c := true, v := true, zn := true } s (addCore m s.advance) :=
  { a := .inr ⟨rfl, rfl, rfl⟩, c := .inr rfl, v := .inr rfl, zn := .inr rfl }

theorem writesOnly_compareCore (r : Byte) : WritesOnly { c := true, zn := true } s (compareCore r m s.advance) :=
  { c := .inr rfl, zn := .inr rfl }

theorem writesOnly_bitCore : WritesOnly { v := true, zn := true } s (bitCore m s.advance) :=
  { v := .inr rfl, zn := .inr rfl }

theorem writesOnly_branchOn (c : Cond) (t : Nat) : WritesOnly {} s (branchOn c t s.advance) := by
  simp only [branchOn, gotoIf_eq]
  exact {}

end

theorem writesOnly_doReturn {w : WriteSet} {s u : State} (h : WritesOnly w s u) (hw : w.stack = true) :
    WritesOnly w s u.doReturn := by
  rcases doReturn_cases u with ⟨-, hr⟩ | ⟨-, hr⟩ <;> rw [hr] <;>
    exact ⟨h.a, h.x, h.y, h.c, h.v, h.zn, .inr hw⟩

theorem writesOnly_selectedBranch {t : Nat} {s u : State} (h : selectedBranch t s.advance = .ok u) :
    WritesOnly {} s u := by
  have hc : ∀ c, WritesOnly {} s (recordedBranch c t s.advance) := fun c =>
    let hw := writesOnly_branchOn s c t
    ⟨hw.a, hw.x, hw.y, hw.c, hw.v, hw.zn, hw.stack⟩
  unfold selectedBranch at h
  split at h
  · cases h
  · cases h; exact hc _
  · cases h; exact hc _

theorem writesOnly_shift_acc {op : Byte → Bool → Byte × Bool} {s t : State}
    (h : oneTick (shift .acc op) s = .next t) : WritesOnly { a := true, c := true, zn := true } s t := by
  refine writesOnly_oneTick h fun u hu => ?_
  rw [shift, modify_acc] at hu
  cases hu
  exact { a := .inr ⟨rfl, rfl, rfl⟩, c := .inr rfl, zn := .inr rfl }

theorem writesOnly_shift_var {k : Key} {op : Byte → Bool → Byte × Bool} {s t : State}
    (h : oneTick (shift (.var k) op) s = .next t) : WritesOnly { c := true, zn := true } s t :=
  writesOnly_modify_var h fun _ => { c := .inr rfl, zn := .inr rfl }

theorem writesOnly_stepSlot {k : Key} {f : Byte → Byte} {s t : State}
    (h : oneTick (stepSlot k f) s = .next t) : WritesOnly { zn := true } s t :=
  writesOnly_modify_var h fun _ => { zn := .inr rfl }

/-! ### Every instruction -/

/-- Every instruction writes only what its mnemonic and mode list. -/
theorem exec_writesOnly {i : Instr} {s t : State} (h : exec i s = .next t) :
    WritesOnly (writeSet i.mnemonic i.mode) s t := by
  cases i <;> simp only [exec] at h
  case adcImm | adcZp | adcAbs => exact writesOnly_withOperand h (writesOnly_addCore s)
  case sbcImm | sbcZp | sbcAbs => exact writesOnly_withOperand h fun _ => writesOnly_addCore s _
  case andImm | andZp | andAbs | oraImm | oraZp | oraAbs | eorImm | eorZp | eorAbs | ldaImm | ldaZp | ldaAbs =>
    exact writesOnly_withOperand h fun _ => writesOnly_loadA s _
  case ldxImm | ldxZp | ldxAbs => exact writesOnly_withOperand h (writesOnly_loadX s)
  case ldyImm | ldyZp | ldyAbs => exact writesOnly_withOperand h (writesOnly_loadY s)
  case bitZp | bitAbs => exact writesOnly_withOperand h (writesOnly_bitCore s)
  case cmpImm | cmpZp | cmpAbs | cpxImm | cpxZp | cpxAbs | cpyImm | cpyZp | cpyAbs =>
    exact writesOnly_withOperand h fun _ => writesOnly_compareCore s _ _
  case aslAcc | lsrAcc | rolAcc | rorAcc => exact writesOnly_shift_acc h
  case aslZp | aslAbs | lsrZp | lsrAbs | rolZp | rolAbs | rorZp | rorAbs => exact writesOnly_shift_var h
  case incZp | incAbs | decZp | decAbs => exact writesOnly_stepSlot h
  case staZp | staAbs | stxZp | stxAbs | styZp | styAbs => exact writesOnly_storeOp_var h
  case bcc | bcs | beq | bne | bmi | bpl | bvc | bvs => exact writesOnly_plainTick h (writesOnly_branchOn s _ _)
  case branch => exact writesOnly_oneTick h fun _ => writesOnly_selectedBranch
  case jmp | cld | cli | sei | sed | nop => exact writesOnly_plainTick h {}
  case jsr | pha | php | txs => exact writesOnly_plainTick h { stack := .inr rfl }
  case rts => exact writesOnly_plainTick h (writesOnly_doReturn {} rfl)
  case rti =>
    exact writesOnly_plainTick h
      (writesOnly_doReturn { c := .inr rfl, v := .inr rfl, zn := .inr rfl, stack := .inr rfl } rfl)
  case plp => exact writesOnly_plainTick h { c := .inr rfl, v := .inr rfl, zn := .inr rfl, stack := .inr rfl }
  case pla => exact writesOnly_plainTick h { a := .inr ⟨rfl, rfl, rfl⟩, zn := .inr rfl, stack := .inr rfl }
  case inx | dex | tax | tsx => exact writesOnly_plainTick h (writesOnly_loadX s _)
  case iny | dey | tay => exact writesOnly_plainTick h (writesOnly_loadY s _)
  case txa | tya => exact writesOnly_plainTick h (writesOnly_loadA s _)
  case clc | sec => exact writesOnly_plainTick h { c := .inr rfl }
  case clv => exact writesOnly_plainTick h { v := .inr rfl }

end Sys2Proof.Machine
end

section
/-! The rules over all instructions on the registers, the flags, the stack and the branch-taken record (10_state.md R103,
R104, R111, R118, R120). -/
namespace Sys2Proof.Machine

/-- Settles O28: a flag that differs is one the instruction writes, and the mnemonics that write it are those listed. -/
theorem flagsChangeOnlyByListed : Obligations.FlagsChangeOnlyByListed := by
  intro i s t h
  have hw := exec_writesOnly h
  refine ⟨fun hne => ?_, fun hne => ?_, fun hne => ?_⟩
  · have hc := hw.c.resolve_left hne
    revert hc; cases i.mnemonic <;> simp [writeSet]
  · have hv := hw.v.resolve_left hne
    revert hv; cases i.mnemonic <;> simp [writeSet]
  · have hzn := hw.zn.resolve_left (not_and_or.mpr hne)
    revert hzn; cases i.mnemonic <;> simp [writeSet]

/-- Settles O29: a register that differs is one the instruction writes. -/
theorem registersChangeOnlyByListed : Obligations.RegistersChangeOnlyByListed := by
  intro i s t h
  have hw := exec_writesOnly h
  refine ⟨fun hne => ?_, fun hne => ?_, fun hne => ?_⟩
  · obtain ⟨ha, -⟩ := hw.a.resolve_left hne
    revert ha; cases i.mnemonic <;> simp [writeSet]
  · obtain ⟨hx, -⟩ := hw.x.resolve_left hne
    revert hx; cases i.mnemonic <;> simp [writeSet]
  · obtain ⟨hy, -⟩ := hw.y.resolve_left hne
    revert hy; cases i.mnemonic <;> simp [writeSet]

theorem Flags.Describes.iff {f : Flags} {b : Byte} (h : f.Describes b) :
    (f.z = true ↔ b = 0) ∧ (f.n = true ↔ 127 < b.toNat) := by
  obtain ⟨hz, hn⟩ := h
  simp [hz, hn]

/-- Settles O30: every write of a register sets Z and N from the byte written. -/
theorem registerWritesSetZeroAndNegative : Obligations.RegisterWritesSetZeroAndNegative := by
  intro i s t h
  have hw := exec_writesOnly h
  exact ⟨fun hne => (hw.a.resolve_left hne).2.iff, fun hne => (hw.x.resolve_left hne).2.iff,
    fun hne => (hw.y.resolve_left hne).2.iff⟩

/-- Settles O31: the stack as the other parts; `BTAKEN` is kept by a fault and by every completed instruction but
`branch`. -/
theorem stackAndRecordChangeOnlyByListed : Obligations.StackAndRecordChangeOnlyByListed := by
  intro i s t h
  refine ⟨fun hne => ?_, fun hne => ?_⟩
  · have hstack := (exec_writesOnly h).stack.resolve_left hne
    revert hstack; cases i.mnemonic <;> simp [writeSet]
  · rcases exec_cases h with ⟨u, hc, rfl⟩ | ⟨e, -, rfl⟩
    · exact hc.btaken.resolve_left hne
    · exact absurd rfl hne

end Sys2Proof.Machine
end

section
/-! The store as a strictly rising list: its entries determine it, and what its slots look up as determines them
(20_memory.md R202, R203; entry 6). -/
namespace Sys2Proof.Machine

theorem keyLt_asymm {j k : Key} (h : keyLt j k = true) : keyLt k j ≠ true := fun h' =>
  ne_true_of_eq_false (keyLt_irrefl j) (keyLt_trans h h')

/-- The order of the entries in a canonical store. -/
def EntryLt (d e : Key × Int) : Prop := keyLt d.1 e.1 = true

theorem entryLt_irrefl : Std.Irrefl EntryLt := ⟨fun e => ne_true_of_eq_false (keyLt_irrefl e.1)⟩

theorem entryLt_antisymm : Std.Antisymm EntryLt := ⟨fun _ _ h h' => absurd h' (keyLt_asymm h)⟩

@[simp] theorem Memory.find?_cons (e : Key × Int) (m : Memory) (k : Key) :
    Memory.find? (e :: m) k = if e.1 = k then some e.2 else m.find? k := rfl

theorem Memory.wf_cons {e : Key × Int} {m : Memory} :
    Memory.wf (e :: m) = true ↔ (∀ d ∈ m, EntryLt e d) ∧ m.wf = true := by
  simp only [Memory.wf, EntryLt, Bool.and_eq_true, List.all_eq_true]

theorem Memory.wf_iff_pairwise {m : Memory} : m.wf = true ↔ m.Pairwise EntryLt := by
  induction m with
  | nil => exact ⟨fun _ => .nil, fun _ => rfl⟩
  | cons e m ih => rw [Memory.wf_cons, List.pairwise_cons, ih]

/-- The first entry of a key is the only one, since the key of a later entry is greater. -/
theorem Memory.find?_eq_some_iff_mem {m : Memory} (h : m.wf = true) {k : Key} {v : Int} :
    m.find? k = some v ↔ (k, v) ∈ m := by
  induction m with
  | nil => simp [Memory.find?]
  | cons e m ih =>
    obtain ⟨hlt, hm⟩ := Memory.wf_cons.mp h
    obtain ⟨j, w⟩ := e
    by_cases hj : j = k
    · subst hj
      have hnot : (j, v) ∉ m := fun hmem => ne_true_of_eq_false (keyLt_irrefl j) (hlt _ hmem)
      simp [hnot, eq_comm]
    · simp [hj, Ne.symm hj, ih hm]

/-- Settles O54: the stores have the same entries, and rising keys leave only one order for them. -/
theorem canonicalStoresAreEqualData : Obligations.CanonicalStoresAreEqualData := by
  intro m n hm hn hfind
  have := entryLt_irrefl
  have := entryLt_antisymm
  refine (Memory.wf_iff_pairwise.mp hm).eq_of_mem_iff (Memory.wf_iff_pairwise.mp hn) fun e => ?_
  rw [← Memory.find?_eq_some_iff_mem hm, ← Memory.find?_eq_some_iff_mem hn, hfind]

end Sys2Proof.Machine
end

section
/-! What the engine keeps of the Program, the parameters and the store (10_state.md R117; 20_memory.md R204 to R208,
R220, R223; 30_encoding.md R324, R325). -/
namespace Sys2Proof.Machine

theorem exec_keepsProgramAndParameters {i : Instr} {s t : State} (h : exec i s = .next t) :
    t.program = s.program ∧ t.bsel = s.bsel ∧ t.budget = s.budget ∧ t.cfg = s.cfg := by
  rcases exec_cases h with ⟨u, hc, rfl⟩ | ⟨e, -, rfl⟩
  · exact ⟨hc.program, hc.bsel, hc.budget, hc.cfg⟩
  · exact ⟨rfl, rfl, rfl, rfl⟩

/-- Settles O33: the two ends of a run and a fault change `STATUS` alone, and an instruction keeps the four. -/
theorem stepKeepsProgramAndParameters : Obligations.StepKeepsProgramAndParameters := by
  intro s t h
  obtain ⟨-, ⟨-, rfl⟩ | ⟨-, -, rfl⟩ | ⟨r, -, -, ⟨i, -, hexec⟩ | ⟨e, -, rfl⟩⟩⟩ := step_cases h
  · exact ⟨rfl, rfl, rfl, rfl⟩
  · exact ⟨rfl, rfl, rfl, rfl⟩
  · exact exec_keepsProgramAndParameters hexec
  · exact ⟨rfl, rfl, rfl, rfl⟩

/-- The instructions that write a slot: the stores, the shifts, `inc` and `dec`. -/
def slotWriters : List Mnemonic := [.sta, .stx, .sty, .asl, .lsr, .rol, .ror, .inc, .dec]

/-- An instruction that only reads its operand keeps the store, where its key is reserved too. -/
theorem vars_of_withOperand {o : Operand} {f : Byte → State → State} {s t : State}
    (h : oneTick (withOperand o f) s = .next t) (hf : ∀ m u, (f m u).vars = u.vars) : t.vars = s.vars := by
  rcases oneTick_cases h with ⟨u, hu, rfl⟩ | ⟨e, -, rfl⟩
  · rcases withOperand_cases hu with ⟨m, -, hr⟩ | ⟨k, -, -, hr⟩
    · cases hr; exact hf m s.advance
    · cases hr
  · rfl

/-- Of the instructions whose operand is a key, all but the slot writers only read it. -/
theorem exec_vars_or_mem_slotWriters {i : Instr} {s t : State} {k : Key} (h : exec i s = .next t)
    (ho : i.operand = .key k) : t.vars = s.vars ∨ i.mnemonic ∈ slotWriters := by
  cases i
  case aslZp | aslAbs | lsrZp | lsrAbs | rolZp | rolAbs | rorZp | rorAbs | incZp | incAbs | decZp | decAbs
      | staZp | staAbs | stxZp | stxAbs | styZp | styAbs =>
    exact .inr (by simp [Instr.mnemonic, slotWriters])
  case adcZp | adcAbs | sbcZp | sbcAbs | andZp | andAbs | oraZp | oraAbs | eorZp | eorAbs | bitZp | bitAbs | cmpZp
      | cmpAbs | cpxZp | cpxAbs | cpyZp | cpyAbs | ldaZp | ldaAbs | ldxZp | ldxAbs | ldyZp | ldyAbs =>
    exact .inl (vars_of_withOperand h fun _ _ => rfl)
  all_goals cases ho

/-- The store after an instruction: as before, or one slot that the operand names, which a slot writer set to a byte. -/
theorem exec_vars_cases {i : Instr} {s t : State} (h : exec i s = .next t) :
    t.vars = s.vars ∨
    ∃ k, ∃ b : Byte, i.operand = .key k ∧ s.reserved k = false ∧ i.mnemonic ∈ slotWriters ∧
      t.vars = s.vars.write k (b.toNat : Int) := by
  rcases exec_cases h with ⟨u, hc, rfl⟩ | ⟨e, -, rfl⟩
  · rcases hc.vars with hv | ⟨k, b, ho, hres, hv⟩
    · exact .inl hv
    · exact (exec_vars_or_mem_slotWriters h ho).imp_right fun hi => ⟨k, b, ho, hres, hi, hv⟩
  · exact .inl rfl

/-- Settles O32: the slot that differs is the one written, since a write leaves every other slot as it was. -/
theorem engineStoresBytesToItsOperand : Obligations.EngineStoresBytesToItsOperand := by
  intro i s t k h hne
  rcases exec_vars_cases h with hv | ⟨j, b, ho, hres, hi, hv⟩
  · exact absurd (by rw [hv]) hne
  · rw [hv] at hne ⊢
    obtain rfl : k = j := by
      by_contra hkj
      exact hne (find?_write_other _ _ hkj)
    exact ⟨ho, hres, hi, b, find?_write_same _ _ _⟩

end Sys2Proof.Machine
end

section
/-! The decoder and the encoder are inverse to each other: a record decodes to an instruction exactly where it is the encoding
of that instruction and its key, if it has one, is well-formed (30_encoding.md R305, R306, R311, R314, R319). -/
namespace Sys2Proof

/-- Row by row of the table of 30_encoding.md R314, an instruction's tag gives a shape that takes the instruction's operand,
if it is well-formed, back to the instruction. -/
theorem decodeTag_encodeTag (i : Instr) :
    ∃ sh, decodeTag (encodeTag i) = some sh ∧ sh.apply i.operand = if i.wf then some i else none := by
  cases i <;> exact ⟨_, rfl, rfl⟩

/-- A record decodes exactly where its tag has a shape and the shape takes its operand. -/
theorem decode_eq_ok_iff_apply {w : RawInstr} {i : Instr} :
    decode w = .ok i ↔ ∃ sh, decodeTag w.tag = some sh ∧ sh.apply w.operand = some i := by
  unfold decode
  cases decodeTag w.tag with
  | none => simp
  | some sh => cases ha : sh.apply w.operand <;> simp [ha]

theorem decode_encode {i : Instr} (h : i.wf = true) : decode (encode i) = .ok i := by
  obtain ⟨sh, hsh, happly⟩ := decodeTag_encodeTag i
  exact decode_eq_ok_iff_apply.mpr ⟨sh, hsh, happly.trans (if_pos h)⟩

/-- Settles O55: row by row, the tag gives back the shape and the operand fills it. -/
theorem decodeInvertsEncode : Obligations.DecodeInvertsEncode :=
  fun _ => decode_encode

/-- Every instruction a shape can give holds the operand it was given. -/
def Shape.KeepsOperand : Shape → Prop
  | .plain i => i.operand = .none
  | .imm mk => ∀ v, (mk v).operand = .imm v
  | .var mk => ∀ k, (mk k).operand = .key k
  | .rel mk => ∀ t, (mk t).operand = .index t

/-- Each row's format is the format of its instruction's operand (30_encoding.md R305, R314). -/
theorem decodeTag_keepsOperand {tag : Byte} {sh : Shape} (h : decodeTag tag = some sh) : sh.KeepsOperand := by
  unfold decodeTag at h
  split at h <;> cases h <;> simp [Shape.KeepsOperand, Instr.operand]

theorem Shape.KeepsOperand.apply {sh : Shape} {o : RawOperand} {i : Instr} (hs : sh.KeepsOperand)
    (h : sh.apply o = some i) : i.operand = o ∧ o.wf = true := by
  unfold Shape.apply at h
  split at h
  · cases h; exact ⟨hs, rfl⟩
  · cases h; exact ⟨hs _, rfl⟩
  · obtain ⟨hk, hi⟩ := Option.ite_none_right_eq_some.mp h
    cases hi; exact ⟨hs _, hk⟩
  · cases h; exact ⟨hs _, rfl⟩
  · cases h

/-- There is no second decoding: the instruction's tag and operand are the record's (30_encoding.md R306, R319). -/
theorem encode_of_decode {w : RawInstr} {i : Instr} (h : decode w = .ok i) : encode i = w ∧ i.wf = true := by
  obtain ⟨sh, hsh, happly⟩ := decode_eq_ok_iff_apply.mp h
  obtain ⟨ho, hwf⟩ := (decodeTag_keepsOperand hsh).apply happly
  exact ⟨by rw [encode, encodeTag_of_decode h, ho], by rw [Instr.wf, ho, hwf]⟩

theorem decode_eq_ok_iff {w : RawInstr} {i : Instr} : decode w = .ok i ↔ encode i = w ∧ i.wf = true :=
  ⟨encode_of_decode, fun ⟨he, hwf⟩ => he ▸ decode_encode hwf⟩

/-- Settles O56: the tag is the encoder's, and a shape keeps the operand it takes. -/
theorem encodeInvertsDecode : Obligations.EncodeInvertsDecode :=
  fun _ _ => encode_of_decode

/-- Settles O59: each word is closed, so both sides compute to the same answer. -/
theorem writtenTagsDecode : Obligations.WrittenTagsDecode :=
  ⟨rfl, rfl, rfl, rfl, rfl, rfl, rfl, rfl, rfl, rfl⟩

end Sys2Proof
end

section
/-! The opcode table against the decoder and the legal-mode matrix (30_encoding.md R305, R312, R314, R315). -/
namespace Sys2Proof

/-- The row of an instruction is in the table. -/
theorem row_mem_opcodeTable (i : Instr) : ((encodeTag i).toNat, i.mnemonic, i.mode) ∈ opcodeTable := by
  cases i <;> exact List.mem_of_elem_eq_true rfl

/-- A row's word decodes to an instruction of the row's pair. -/
theorem decodeTableWord_of_mem_opcodeTable : ∀ row ∈ opcodeTable,
    (decodeTableWord 8 row.1).map (fun i => (i.mnemonic, i.mode)) = some row.2 := by
  decide

theorem legalPair_of_mem_opcodeTable : ∀ row ∈ opcodeTable, legalPair row.2.1 row.2.2 = true := by
  decide

/-- Each mode of the matrix of R312 has a row in the table of R314. -/
theorem exists_row_of_mem_legalModes (m : Mnemonic) : ∀ md ∈ legalModes m, ∃ row ∈ opcodeTable, row.2 = (m, md) := by
  cases m <;> decide

theorem legalPair_instr (i : Instr) : legalPair i.mnemonic i.mode = true :=
  legalPair_of_mem_opcodeTable _ (row_mem_opcodeTable i)

/-- A row of the table is the row of an instruction, the one its word decodes to. -/
theorem exists_instr_of_mem_opcodeTable {row : OpcodeRow} (h : row ∈ opcodeTable) :
    ∃ i, decodeTableWord 8 row.1 = some i ∧ (i.mnemonic, i.mode) = row.2 :=
  Option.map_eq_some_iff.mp (decodeTableWord_of_mem_opcodeTable row h)

/-- Settles O58: the rows are the instructions' and, by the table, the pairs of the matrix. -/
theorem instructionsAreTheLegalPairs : Obligations.InstructionsAreTheLegalPairs := by
  refine ⟨row_mem_opcodeTable, fun m md => ⟨fun h => ?_, ?_⟩⟩
  · obtain ⟨row, hrow, hpair⟩ := exists_row_of_mem_legalModes m md (List.contains_iff_mem.mp h)
    obtain ⟨i, -, hi⟩ := exists_instr_of_mem_opcodeTable hrow
    exact ⟨i, Prod.ext_iff.mp (hi.trans hpair)⟩
  · rintro ⟨i, rfl, rfl⟩
    exact legalPair_instr i

/-- A table word of 8 bits is the tag with the operand of zeros (entry 5). -/
theorem decode_of_decodeTableWord {tag : Byte} {i : Instr} (h : decodeTableWord 8 tag.toNat = some i) :
    decode ⟨tag, zeroOperand tag⟩ = .ok i := by
  have hword : tableWord 8 tag.toNat = ⟨tag, zeroOperand tag⟩ := by simp [tableWord, tag.isLt]
  rw [decodeTableWord, hword] at h
  cases hd : decode ⟨tag, zeroOperand tag⟩ with
  | error e => rw [hd] at h; cases h
  | ok j => rw [hd] at h; cases h; rfl

/-- A tag decodes exactly where the table lists it (30_encoding.md R315). -/
theorem exists_decode_iff_mem_opcodeTable (tag : Byte) :
    (∃ operand i, decode ⟨tag, operand⟩ = .ok i) ↔ tag.toNat ∈ opcodeTable.map (·.1) := by
  constructor
  · rintro ⟨operand, i, h⟩
    obtain rfl : encodeTag i = tag := encodeTag_of_decode h
    exact List.mem_map_of_mem (row_mem_opcodeTable i)
  · intro h
    obtain ⟨row, hrow, htag⟩ := List.mem_map.mp h
    obtain ⟨i, hi, -⟩ := exists_instr_of_mem_opcodeTable hrow
    exact ⟨zeroOperand tag, i, decode_of_decodeTableWord (htag ▸ hi)⟩

/-- Settles O57: the table is counted, and its tags are those that decode. -/
theorem ninetyTwoTagsDecode : Obligations.NinetyTwoTagsDecode :=
  ⟨rfl, by decide, exists_decode_iff_mem_opcodeTable⟩

end Sys2Proof
end

section
/-! The record formats (30_encoding.md R305): a mode, a tag's shape and an operand each have one. -/
namespace Sys2Proof

/-- The four formats of 30_encoding.md R305: F-NONE, F-IMM, F-VAR and F-REL. -/
inductive Format where
  | none
  | imm
  | var
  | rel
  deriving DecidableEq

/-- The format of a mode. -/
def Mode.format : Mode → Format
  | .imp | .acc => .none
  | .imm => .imm
  | .zp | .abs => .var
  | .rel => .rel

/-- The format of the operands a shape takes. -/
def Shape.format : Shape → Format
  | .plain _ => .none
  | .imm _ => .imm
  | .var _ => .var
  | .rel _ => .rel

/-- The format an operand is of. -/
def RawOperand.format : RawOperand → Format
  | .none => .none
  | .imm _ => .imm
  | .key _ => .var
  | .index _ => .rel

/-- An instruction's operand is of the format of its mode. -/
theorem operand_format (i : Instr) : i.operand.format = i.mode.format := by
  cases i <;> rfl

theorem RawOperand.exists_key_of_format {o : RawOperand} (h : o.format = .var) : ∃ k, o = .key k :=
  match o, h with
  | .key k, _ => ⟨k, rfl⟩

/-- A tag alone gives the format: its shape's is that of its row's mode (30_encoding.md R306, R314). -/
theorem decodeTag_format : ∀ row ∈ opcodeTable,
    (decodeTag (BitVec.ofNat 8 row.1)).map Shape.format = some row.2.2.format := by
  decide

/-- A shape takes every well-formed operand of its format. -/
theorem Shape.exists_apply {sh : Shape} {o : RawOperand} (hf : sh.format = o.format) (hwf : o.wf = true) :
    ∃ i, sh.apply o = some i :=
  match sh, o, hf with
  | .plain i, .none, _ => ⟨i, rfl⟩
  | .imm mk, .imm v, _ => ⟨mk v, rfl⟩
  | .var mk, .key k, _ => ⟨mk k, if_pos hwf⟩
  | .rel mk, .index t, _ => ⟨mk t, rfl⟩

end Sys2Proof
end

section
/-! ZeroPage and Absolute are one mode in all but name (30_encoding.md R324). -/
namespace Sys2Proof.Machine

/-- The Absolute instruction of a mnemonic that takes a key; `nop` for any other mnemonic. -/
def absoluteForm : Mnemonic → Key → Instr
  | .adc, k => .adcAbs k
  | .sbc, k => .sbcAbs k
  | .and, k => .andAbs k
  | .ora, k => .oraAbs k
  | .eor, k => .eorAbs k
  | .bit, k => .bitAbs k
  | .asl, k => .aslAbs k
  | .lsr, k => .lsrAbs k
  | .rol, k => .rolAbs k
  | .ror, k => .rorAbs k
  | .cmp, k => .cmpAbs k
  | .cpx, k => .cpxAbs k
  | .cpy, k => .cpyAbs k
  | .inc, k => .incAbs k
  | .dec, k => .decAbs k
  | .lda, k => .ldaAbs k
  | .ldx, k => .ldxAbs k
  | .ldy, k => .ldyAbs k
  | .sta, k => .staAbs k
  | .stx, k => .stxAbs k
  | .sty, k => .styAbs k
  | _, _ => .nop

/-- An instruction whose operand is a key does what the Absolute one of its mnemonic does. -/
theorem exec_eq_exec_absoluteForm {i : Instr} {k : Key} (ho : i.operand = .key k) (s : State) :
    exec i s = exec (absoluteForm i.mnemonic k) s := by
  cases i <;> cases ho <;> rfl

/-- Settles O27: what an instruction with a key does is a matter of its mnemonic and its key alone. -/
theorem zeroPageEqualsAbsolute : Obligations.ZeroPageEqualsAbsolute := by
  intro i j hm ho hzp _ s
  obtain ⟨k, hi⟩ := RawOperand.exists_key_of_format ((operand_format i).trans (congrArg Mode.format hzp))
  have hj : j.operand = .key k := ho ▸ hi
  rw [exec_eq_exec_absoluteForm hi, exec_eq_exec_absoluteForm hj, hm]

end Sys2Proof.Machine
end

section
/-! What LoadProgram admits (30_encoding.md R307; 70_reset_and_hazards.md R806). -/
namespace Sys2Proof

theorem wfIn_iff {n : Nat} {i : Instr} :
    i.wfIn n = true ↔ (∀ k, i.operand = .key k → k.wf = true) ∧ (∀ t, i.operand = .index t → t ≤ n) := by
  refine ⟨fun h => ⟨fun _ => key_wf_of_wfIn h, fun _ => index_le_of_wfIn h⟩, fun ⟨hkey, hindex⟩ => ?_⟩
  rw [Instr.wfIn, Instr.wf]
  cases ho : i.operand with
  | none | imm => rfl
  | key k => simp [RawOperand.wf, RawOperand.fits, hkey k ho]
  | index t => simp [RawOperand.wf, RawOperand.fits, hindex t ho]

/-- A record of a well-formed Program decodes to an instruction whose target, if it has one, is in range. -/
theorem Record.wfIn_iff_decode {n : Nat} {r : Record} :
    r.wfIn n = true ↔ ∃ i, decode r.raw = .ok i ∧ i.wfIn n = true := by
  unfold Record.wfIn
  cases decode r.raw <;> simp

theorem Record.wfIn_iff_encode {n : Nat} {r : Record} :
    r.wfIn n = true ↔ ∃ i, encode i = r.raw ∧ i.wfIn n = true := by
  rw [Record.wfIn_iff_decode]
  refine exists_congr fun i => ?_
  rw [decode_eq_ok_iff, Instr.wfIn, Bool.and_eq_true]
  tauto

theorem wellFormedProgram_iff {p : Program} :
    wellFormedProgram p = true ↔ p.length ≤ 65535 ∧ ∀ r ∈ p, r.wfIn p.length = true := by
  simp only [wellFormedProgram, Bool.and_eq_true, decide_eq_true_eq, List.all_eq_true]
  rfl

end Sys2Proof

namespace Sys2Proof.Machine

theorem loadProgram_cases (p : Program) :
    wellFormedProgram p = true ∧ loadProgram p = .ok p ∨
    wellFormedProgram p = false ∧ loadProgram p = .error .loadError := by
  unfold loadProgram
  cases wellFormedProgram p <;> simp

theorem loadProgram_eq_ok_iff {p : Program} : loadProgram p = .ok p ↔ wellFormedProgram p = true := by
  rcases loadProgram_cases p with ⟨hp, hl⟩ | ⟨hp, hl⟩ <;> simp [hp, hl]

/-- Settles O51: by what a well-formed Program says of each record, and the two answers of `LoadProgram`. -/
theorem loadAdmitsWellFormedOnly : Obligations.LoadAdmitsWellFormedOnly := by
  intro p
  refine ⟨?_, (loadProgram_cases p).imp And.right And.right⟩
  simp only [loadProgram_eq_ok_iff, wellFormedProgram_iff, Record.wfIn_iff_encode, wfIn_iff]

end Sys2Proof.Machine
end

section
/-! What the assembler produces is well-formed (30_encoding.md R307, R330 to R345): each operand that pass 2 resolves is of
the format of its mode, and the compact map's indices are in range of what pass 3 emits. -/
namespace Sys2Proof.Machine

/-- A record's tag is its pair's. -/
theorem recordOf_eq_ok {line : Nat} {m : Mnemonic} {md : Mode} {o : RawOperand} {r : Record}
    (h : recordOf line m md o = .ok r) : ∃ row ∈ opcodeTable, row.2.2 = md ∧ r.raw = ⟨BitVec.ofNat 8 row.1, o⟩ := by
  unfold recordOf at h
  split at h
  · next tag htag =>
    obtain ⟨row, hrow, rfl⟩ := Option.map_eq_some_iff.mp htag
    have hpair := List.find?_some hrow
    simp only [Bool.and_eq_true, beq_iff_eq] at hpair
    cases h
    exact ⟨row, List.mem_of_find?_eq_some hrow, hpair.2, rfl⟩
  · cases h

/-- A record whose operand is of its mode's format, is well-formed and is in range is a record of a well-formed Program. -/
theorem wfIn_of_recordOf {line n : Nat} {m : Mnemonic} {md : Mode} {o : RawOperand} {r : Record}
    (h : recordOf line m md o = .ok r) (hmd : md.format = o.format) (hwf : o.wf = true) (hfits : o.fits n = true) :
    r.wfIn n = true := by
  obtain ⟨row, hrow, rfl, hraw⟩ := recordOf_eq_ok h
  obtain ⟨sh, hsh, hformat⟩ := Option.map_eq_some_iff.mp (decodeTag_format row hrow)
  obtain ⟨i, hi⟩ := Shape.exists_apply (hformat.trans hmd) hwf
  obtain ⟨hio, -⟩ := (decodeTag_keepsOperand hsh).apply hi
  refine Record.wfIn_iff_decode.mpr ⟨i, decode_eq_ok_iff_apply.mpr ?_, ?_⟩
  · rw [hraw]; exact ⟨sh, hsh, hi⟩
  · rw [Instr.wfIn, Instr.wf, hio, hwf, hfits]; rfl

/-! ### Pass 2 -/

/-- The operand of a resolved entry is well-formed, of the format of its mode and in range of every Program; a jump's
operand is still its label. -/
def Resolved.Sound : Resolved → Prop
  | .op _ _ md o => md.format = o.format ∧ o.wf = true ∧ ∀ n, o.fits n = true
  | .label _ | .jump _ _ _ => True

theorem resolveOp_sound {p : Pass1} {g : Option Ident} {pos line : Nat} {m : Mnemonic} {md : Mode} {arg : List Char}
    {r : Resolved} (h : p.resolveOp g pos line m md arg = .ok r) : r.Sound := by
  cases md <;> simp only [Pass1.resolveOp] at h
  case imp | acc => cases h; exact ⟨rfl, rfl, fun _ => rfl⟩
  case imm =>
    split at h
    · cases h; exact ⟨rfl, rfl, fun _ => rfl⟩
    · cases h
  case zp | abs =>
    split at h
    · next k hk => cases h; exact ⟨rfl, (keyOf_some hk).1, fun _ => rfl⟩
    · cases h
  case rel =>
    split at h
    · cases h; trivial
    · cases h

theorem resolveFrom_sound {p : Pass1} {g : Option Ident} {pos : Nat} {es : List Entry} {rs : List Resolved}
    (h : p.resolveFrom g pos es = .ok rs) : ∀ r ∈ rs, r.Sound := by
  induction es generalizing g pos rs with
  | nil => cases h; exact List.forall_mem_nil _
  | cons e es ih =>
    simp only [Pass1.resolveFrom] at h
    split at h
    · cases h
    · next r hr =>
      split at h
      · next rs' hrs =>
        cases h
        refine List.forall_mem_cons.mpr ⟨?_, ih hrs⟩
        cases e with
        | label l => cases hr; trivial
        | op => exact resolveOp_sound hr
      · cases h

/-! ### Pass 3 -/

/-- What pass 3 emits for an entry that is no placeholder (R345). -/
def Resolved.Emits (map : List (LabelKey × Nat)) (r : Record) : Resolved → Prop
  | .label _ => False
  | .op line m md o => recordOf line m md o = .ok r
  | .jump line m _ => ∃ e ∈ map, recordOf line m .rel (.index e.2) = .ok r

theorem emit_cons_cases {map : List (LabelKey × Nat)} {x : Resolved} {rs : List Resolved} {p : Program}
    (h : emit map (x :: rs) = .ok p) :
    (∃ l, x = .label l ∧ emit map rs = .ok p) ∨
    ∃ r q, x.Emits map r ∧ emit map rs = .ok q ∧ p = r :: q := by
  cases x with
  | label l => exact .inl ⟨l, rfl, h⟩
  | op line m md o =>
    simp only [emit] at h
    split at h
    · next r q hr hq => cases h; exact .inr ⟨r, q, hr, hq, rfl⟩
    · cases h
    · cases h
  | jump line m l =>
    simp only [emit] at h
    split at h
    · cases h
    · next e he =>
      split at h
      · next r q hr hq => cases h; exact .inr ⟨r, q, ⟨e, List.mem_of_find?_eq_some he, hr⟩, hq, rfl⟩
      · cases h
      · cases h

/-- The compact map's indices count records that are emitted. -/
theorem compactFrom_le {map : List (LabelKey × Nat)} {rs : List Resolved} {p : Program} {index : Nat}
    (h : emit map rs = .ok p) : ∀ e ∈ compactFrom index rs, e.2 ≤ index + p.length := by
  induction rs generalizing p index with
  | nil => exact List.forall_mem_nil _
  | cons x rs ih =>
    intro e he
    rcases emit_cons_cases h with ⟨l, rfl, hp⟩ | ⟨r, q, hx, hq, rfl⟩
    · rcases List.mem_cons.mp he with rfl | he
      · exact Nat.le_add_right _ _
      · exact ih hp e he
    · have hrest : e ∈ compactFrom (index + 1) rs := by
        cases x with
        | label l => exact hx.elim
        | op | jump => exact he
      have := ih hq e hrest
      simp only [List.length_cons]; omega

/-- A record emitted for a sound entry, with a map whose indices are in range. -/
theorem Resolved.Emits.wfIn {map : List (LabelKey × Nat)} {n : Nat} {x : Resolved} {r : Record} (h : x.Emits map r)
    (hx : x.Sound) (hmap : ∀ e ∈ map, e.2 ≤ n) : r.wfIn n = true := by
  cases x with
  | label l => exact h.elim
  | op line m md o =>
    obtain ⟨hmd, hwf, hfits⟩ := hx
    exact wfIn_of_recordOf h hmd hwf (hfits n)
  | jump line m l =>
    obtain ⟨e, he, hr⟩ := h
    exact wfIn_of_recordOf hr rfl rfl (decide_eq_true (hmap e he))

theorem emit_wfIn {map : List (LabelKey × Nat)} {n : Nat} {rs : List Resolved} {p : Program}
    (h : emit map rs = .ok p) (hmap : ∀ e ∈ map, e.2 ≤ n) (hs : ∀ x ∈ rs, x.Sound) : ∀ r ∈ p, r.wfIn n = true := by
  induction rs generalizing p with
  | nil => cases h; exact List.forall_mem_nil _
  | cons x rs ih =>
    obtain ⟨hx, hrs⟩ := List.forall_mem_cons.mp hs
    rcases emit_cons_cases h with ⟨l, -, hp⟩ | ⟨r, q, hr, hq, rfl⟩
    · exact ih hp hrs
    · exact List.forall_mem_cons.mpr ⟨hr.wfIn hx hmap, ih hq hrs⟩

theorem pass3_wfIn {p : Pass1} {rs : List Resolved} {q : Program} (h : pass3 p rs = .ok q)
    (hs : ∀ x ∈ rs, x.Sound) : ∀ r ∈ q, r.wfIn q.length = true := by
  simp only [pass3] at h
  split at h
  · have hmap : ∀ e ∈ compactFrom 0 rs, e.2 ≤ q.length := by simpa using compactFrom_le (index := 0) h
    exact emit_wfIn h hmap hs
  · cases h

/-- A Program that is assembled went through all passes and the length check (R330). -/
theorem assemble_eq_ok {src : List Char} {q : Program} (h : assemble src = .ok q) :
    ∃ p rs, pass2 p = .ok rs ∧ pass3 p rs = .ok q ∧ q.length ≤ 65535 := by
  unfold assemble at h
  split at h
  · cases h
  · next p hp =>
    split at h
    · cases h
    · next rs hrs =>
      split at h
      · cases h
      · next q' hq =>
        obtain ⟨rfl, hlen⟩ := withinLength_ok h
        exact ⟨p, rs, hrs, hq, hlen⟩

/-- Settles O60: pass 2 resolves sound entries, pass 3 emits a well-formed record for each, and the length is checked. -/
theorem assembledProgramIsWellFormed : Obligations.AssembledProgramIsWellFormed := by
  intro src q h
  obtain ⟨p, rs, h2, h3, hlen⟩ := assemble_eq_ok h
  exact wellFormedProgram_iff.mpr ⟨hlen, pass3_wfIn h3 (resolveFrom_sound h2)⟩

end Sys2Proof.Machine
end

section
/-! The variable forms and the data forms of a rule that reads its operand (30_encoding.md R321 to R324; 60_exceptions.md
R710), shown once for every such rule. -/
namespace Sys2Proof

open Machine

/-! ### A stronger rule gives a weaker one -/

theorem VarForms.imp {s : State} {zp abs : Key → Instr} {zpTag absTag : Byte} {P Q : Instr → Key → Byte → Prop}
    (h : VarForms s zp abs zpTag absTag P) (hPQ : ∀ i k m, P i k m → Q i k m) : VarForms s zp abs zpTag absTag Q := by
  intro k
  obtain ⟨hdecode, hP, hfault⟩ := h k
  exact ⟨hdecode, fun hk => (hP hk).imp (hPQ _ _ _) (hPQ _ _ _), hfault⟩

theorem ReadForms.imp {s : State} {imm : Int → Instr} {zp abs : Key → Instr} {immTag zpTag absTag : Byte}
    {P Q : Instr → Byte → Prop} (h : ReadForms s imm zp abs immTag zpTag absTag P) (hPQ : ∀ i m, P i m → Q i m) :
    ReadForms s imm zp abs immTag zpTag absTag Q :=
  ⟨fun v => (h.1 v).imp_right (hPQ _ _), h.2.imp fun i _ m => hPQ i m⟩

/-! ### Reading an operand -/

theorem exec_of_loadOp {i : Instr} {s : State} {o : Operand} {f : Byte → State → State} {m : Byte}
    (hi : exec i s = oneTick (withOperand o f) s) (hm : s.loadOp o = .ok m) :
    exec i s = .next (f m s.advance).countTick :=
  hi.trans (oneTick_ok (withOperand_ok ((s.advance_loadOp o).trans hm)))

theorem faultsWith_of_reserved {i : Instr} {s : State} {k : Key} {f : Byte → State → State}
    (hi : exec i s = oneTick (withOperand (.var k) f) s) (hk : s.reserved k = true) :
    FaultsWith i s .reservedKeyAccess (some k) :=
  hi.trans (oneTick_error (withOperand_error ((s.advance_loadOp _).trans (loadOp_reserved hk))))

theorem decode_of_encode_key {i : Instr} {tag : Byte} {k : Key} (h : encode i = ⟨tag, .key k⟩) (hk : k.wf = true) :
    decode ⟨tag, .key k⟩ = .ok i :=
  decode_eq_ok_iff.mpr ⟨h, (congrArg (fun w : RawInstr => w.operand.wf) h).trans hk⟩

theorem decode_of_encode_imm {i : Instr} {tag : Byte} {v : Int} (h : encode i = ⟨tag, .imm v⟩) :
    decode ⟨tag, .imm v⟩ = .ok i :=
  decode_eq_ok_iff.mpr ⟨h, congrArg (fun w : RawInstr => w.operand.wf) h⟩

/-! ### The forms of a reading rule -/

section
variable {s : State} {zp abs : Key → Instr} {zpTag absTag : Byte} {f : Byte → State → State}

theorem varForms_of_withOperand {P : Instr → Key → Byte → Prop}
    (hzpEnc : ∀ k, encode (zp k) = ⟨zpTag, .key k⟩) (habsEnc : ∀ k, encode (abs k) = ⟨absTag, .key k⟩)
    (hzp : ∀ k, exec (zp k) s = oneTick (withOperand (.var k) f) s)
    (habs : ∀ k, exec (abs k) s = oneTick (withOperand (.var k) f) s)
    (hP : ∀ i k m, exec i s = .next (f m s.advance).countTick → P i k m) : VarForms s zp abs zpTag absTag P := by
  refine fun k => ⟨fun hwf => ?_, fun hk => ?_, fun hk => ?_⟩
  · exact ⟨decode_of_encode_key (hzpEnc k) hwf, decode_of_encode_key (habsEnc k) hwf⟩
  · exact ⟨hP _ _ _ (exec_of_loadOp (hzp k) (loadOp_var hk)), hP _ _ _ (exec_of_loadOp (habs k) (loadOp_var hk))⟩
  · exact ⟨faultsWith_of_reserved (hzp k) hk, faultsWith_of_reserved (habs k) hk⟩

theorem readForms_of_withOperand {imm : Int → Instr} {immTag : Byte} {P : Instr → Byte → Prop}
    (himmEnc : ∀ v, encode (imm v) = ⟨immTag, .imm v⟩) (hzpEnc : ∀ k, encode (zp k) = ⟨zpTag, .key k⟩)
    (habsEnc : ∀ k, encode (abs k) = ⟨absTag, .key k⟩)
    (himm : ∀ v, exec (imm v) s = oneTick (withOperand (.imm v) f) s)
    (hzp : ∀ k, exec (zp k) s = oneTick (withOperand (.var k) f) s)
    (habs : ∀ k, exec (abs k) s = oneTick (withOperand (.var k) f) s)
    (hP : ∀ i m, exec i s = .next (f m s.advance).countTick → P i m) :
    ReadForms s imm zp abs immTag zpTag absTag P :=
  ⟨fun v => ⟨decode_of_encode_imm (himmEnc v), hP _ _ (exec_of_loadOp (himm v) (loadOp_imm s v))⟩,
    varForms_of_withOperand hzpEnc habsEnc hzp habs fun i _ m => hP i m⟩

end

end Sys2Proof
end

section
/-! The overflow formula of the add core, bit by bit and as a signed range (40_arithmetic.md R400, R403, R404). -/
namespace Sys2Proof.Machine

theorem b2i_le_one (c : Bool) : b2i c ≤ 1 := by cases c <;> decide

theorem toNat_fold_natCast (r : Nat) : (fold (r : Int)).toNat = r % 256 := by
  have := coe_toNat_fold r
  omega

/-- The one's complement of `sbc` (R402). -/
theorem toNat_complement (m : Byte) : (~~~m).toNat = 255 - m.toNat := BitVec.toNat_not

theorem testBit_seven_iff (r : Nat) : r.testBit 7 = true ↔ 128 ≤ r % 256 := by
  rw [Nat.testBit_eq_decide_div_mod_eq, decide_eq_true_iff]
  omega

theorem testBit_seven_eq_iff (p r : Nat) :
    p.testBit 7 = r.testBit 7 ↔ (128 ≤ p % 256 ↔ 128 ≤ r % 256) := by
  rw [Bool.eq_iff_iff, testBit_seven_iff, testBit_seven_iff]

theorem and_sign_ne_zero_iff (r : Nat) : r &&& 0x80 ≠ 0 ↔ r.testBit 7 = true := by
  rw [show (0x80 : Nat) = 2 ^ 7 from rfl, Nat.and_two_pow]
  cases r.testBit 7 <;> decide

/-- Overflow looks at the three sign bits alone: both terms differ there from the sum. -/
theorem overflow_iff_testBit (a m r : Nat) :
    (a ^^^ r) &&& (m ^^^ r) &&& 0x80 ≠ 0 ↔ a.testBit 7 ≠ r.testBit 7 ∧ m.testBit 7 ≠ r.testBit 7 := by
  rw [and_sign_ne_zero_iff, Nat.testBit_and, Nat.testBit_xor, Nat.testBit_xor, Bool.and_eq_true, Bool.xor_iff_ne,
    Bool.xor_iff_ne]

/-- Folding keeps bit 7 (R404). -/
theorem testBit_toNat_fold (r : Nat) : (fold (r : Int)).toNat.testBit 7 = r.testBit 7 := by
  rw [testBit_seven_eq_iff, toNat_fold_natCast, Nat.mod_mod]

/-- Settles O4: folding keeps bit 7, and the formula looks at no other bit of the sum. -/
theorem overflowSameOnFoldedSum : Obligations.OverflowSameOnFoldedSum := by
  intro a m c r
  refine ⟨(testBit_toNat_fold r).symm, ?_⟩
  rw [overflow_iff_testBit, overflow_iff_testBit, testBit_toNat_fold]

/-- The rule's `s(v)`: a byte with bit 7 set counts 256 less (R403). -/
theorem toInt_byte_cases (b : Byte) :
    b.toNat < 128 ∧ b.toInt = b.toNat ∨ 128 ≤ b.toNat ∧ b.toInt = b.toNat - 256 := by
  rw [BitVec.toInt_eq_toNat_cond]
  split <;> omega

theorem toInt_complement (m : Byte) : (~~~m).toInt = -m.toInt - 1 := by
  have hnat := toNat_complement m
  rcases toInt_byte_cases m with ⟨hm, hsm⟩ | ⟨hm, hsm⟩ <;>
    rcases toInt_byte_cases (~~~m) with ⟨hc, hsc⟩ | ⟨hc, hsc⟩ <;> omega

/-- The two terms agree in sign and the sum does not exactly where the signed sum is no byte (R403). -/
theorem overflow_iff_signed_range (a m : Byte) (c : Bool) :
    ((a.toNat ^^^ (a.toNat + m.toNat + b2i c)) &&& (m.toNat ^^^ (a.toNat + m.toNat + b2i c)) &&& 0x80 ≠ 0) ↔
      ¬ (-128 ≤ a.toInt + m.toInt + b2i c ∧ a.toInt + m.toInt + b2i c ≤ 127) := by
  rw [overflow_iff_testBit, ne_eq, ne_eq, testBit_seven_eq_iff, testBit_seven_eq_iff]
  have hc := b2i_le_one c
  rcases toInt_byte_cases a with ⟨ha, hsa⟩ | ⟨ha, hsa⟩ <;>
    rcases toInt_byte_cases m with ⟨hm, hsm⟩ | ⟨hm, hsm⟩ <;> omega

end Sys2Proof.Machine
end

section
/-! `adc` and `sbc` are one tick around the add core (40_arithmetic.md R400 to R403). -/
namespace Sys2Proof.Machine

/-- From `s` to `t` the byte `m` and the carry were added to A as R400 says, and nothing else happened in the tick. -/
structure AddsByte (s : State) (m : Byte) (t : State) : Prop where
  frame : OnlyRegisters s t
  x : t.x = s.x
  y : t.y = s.y
  a : t.a.toNat = (s.a.toNat + m.toNat + b2i s.flags.c) % 256
  c : t.flags.c = true ↔ 255 < s.a.toNat + m.toNat + b2i s.flags.c
  v : t.flags.v = true ↔ (s.a.toNat ^^^ (s.a.toNat + m.toNat + b2i s.flags.c)) &&&
    (m.toNat ^^^ (s.a.toNat + m.toNat + b2i s.flags.c)) &&& 0x80 ≠ 0
  z : t.flags.z = true ↔ t.a.toNat = 0
  n : t.flags.n = true ↔ 127 < t.a.toNat

theorem addsByte_addCore (s : State) (m : Byte) : AddsByte s m (addCore m s.advance).countTick where
  frame := ⟨rfl, fun _ => rfl⟩
  x := rfl
  y := rfl
  a := toNat_fold_natCast _
  c := decide_eq_true_iff
  v := decide_eq_true_iff
  z := decide_eq_true_iff.trans BitVec.toNat_eq
  n := decide_eq_true_iff

/-- The operand of `sbc` enters the add core as its bitwise complement. -/
theorem subCore_eq_addCore (m : Byte) : subCore m = addCore (~~~m) := by
  funext s
  rw [subCore, ← toNat_complement, BitVec.ofNat_toNat, BitVec.setWidth_eq]

/-- R401. -/
theorem adc_addsByte (s : State) : ReadForms s .adcImm .adcZp .adcAbs 0x69#8 0x65#8 0x6D#8 fun i m =>
    ∃ t, exec i s = .next t ∧ AddsByte s m t :=
  readForms_of_withOperand (fun _ => rfl) (fun _ => rfl) (fun _ => rfl) (fun _ => rfl) (fun _ => rfl) (fun _ => rfl)
    fun _ m h => ⟨_, h, addsByte_addCore s m⟩

/-- R402. -/
theorem sbc_addsByte_complement (s : State) : ReadForms s .sbcImm .sbcZp .sbcAbs 0xE9#8 0xE5#8 0xED#8 fun i m =>
    ∃ t, exec i s = .next t ∧ AddsByte s (~~~m) t :=
  readForms_of_withOperand (fun _ => rfl) (fun _ => rfl) (fun _ => rfl) (fun _ => rfl) (fun _ => rfl) (fun _ => rfl)
    fun _ m h => ⟨_, h, subCore_eq_addCore m ▸ addsByte_addCore s (~~~m)⟩

/-- Settles O1: `adc` is the add core on its operand. -/
theorem adcAddsOperandAndCarry : Obligations.AdcAddsOperandAndCarry := by
  refine fun s => (adc_addsByte s).imp ?_
  rintro i m ⟨t, hexec, h⟩
  exact ⟨t, hexec, h.frame, h.x, h.y, h.a, h.c, h.v, h.z, h.n⟩

/-- Settles O2: `sbc` is the add core on the complement, whose value is `255 - M`. -/
theorem sbcAddsComplementAndCarry : Obligations.SbcAddsComplementAndCarry := by
  refine fun s => (sbc_addsByte_complement s).imp ?_
  rintro i m ⟨t, hexec, h⟩
  rw [← toNat_complement m]
  exact ⟨t, hexec, h.frame, h.x, h.y, h.a, h.c, h.v, h.z, h.n⟩

/-! ### The arithmetic laws (R403) -/

section
variable {s t : State} {m : Byte}

theorem AddsByte.overflow_iff_range (h : AddsByte s m t) : t.flags.v = true ↔
    ¬ (-128 ≤ s.a.toInt + m.toInt + b2i s.flags.c ∧ s.a.toInt + m.toInt + b2i s.flags.c ≤ 127) :=
  h.v.trans (overflow_iff_signed_range s.a m s.flags.c)

/-- The sign of the new A is that of the unfolded sum, folding keeping bit 7 (R404). -/
theorem AddsByte.overflow_iff_signs (h : AddsByte s m t) : t.flags.v = true ↔
    s.a.getLsbD 7 = m.getLsbD 7 ∧ t.a.getLsbD 7 ≠ s.a.getLsbD 7 := by
  have ht : (s.a.toNat + m.toNat + b2i s.flags.c).testBit 7 = t.a.getLsbD 7 := by
    rw [← BitVec.testBit_toNat, h.a, ← toNat_fold_natCast, testBit_toNat_fold]
  rw [h.v, overflow_iff_testBit, ht, BitVec.testBit_toNat, BitVec.testBit_toNat]
  cases s.a.getLsbD 7 <;> cases m.getLsbD 7 <;> cases t.a.getLsbD 7 <;> decide

/-- Adding `255 - M` and the carry is subtracting `M` and the borrow, modulo 256. -/
theorem AddsByte.a_of_complement (h : AddsByte s (~~~m) t) :
    (t.a.toNat : Int) = (s.a.toNat - m.toNat - (1 - b2i s.flags.c) : Int) % 256 := by
  have ha := h.a
  rw [toNat_complement] at ha
  omega

theorem AddsByte.c_of_complement (h : AddsByte s (~~~m) t) :
    t.flags.c = true ↔ (0 : Int) ≤ s.a.toNat - m.toNat - (1 - b2i s.flags.c) := by
  rw [h.c, toNat_complement]
  omega

theorem AddsByte.v_of_complement (h : AddsByte s (~~~m) t) : t.flags.v = true ↔
    ¬ (-128 ≤ s.a.toInt - m.toInt - (1 - b2i s.flags.c) ∧ s.a.toInt - m.toInt - (1 - b2i s.flags.c) ≤ 127) := by
  rw [h.overflow_iff_range, toInt_complement]
  omega

end

/-- Settles O3: the laws hold of the add core, and the complement turns its sum into the difference with borrow. -/
theorem addAndSubtractArithmeticLaws : Obligations.AddAndSubtractArithmeticLaws := by
  refine fun s => ⟨(adc_addsByte s).imp ?_, (sbc_addsByte_complement s).imp ?_⟩
  · rintro i m ⟨t, hexec, h⟩
    exact ⟨t, hexec, h.a, h.c, h.overflow_iff_range, h.overflow_iff_signs, h.z, h.n⟩
  · rintro i m ⟨t, hexec, h⟩
    exact ⟨t, hexec, h.a_of_complement, h.c_of_complement, h.v_of_complement, h.z, h.n⟩

end Sys2Proof.Machine
end

section
/-! `and`, `ora` and `eor` load a combination of A and the operand into A; `bit` writes flags alone (41_logical.md R420 to
R423). -/
namespace Sys2Proof.Machine

/-- What `SetNZ` leaves is what a rule says of Z, N, C and V (00_scope.md R16). -/
theorem describesNZ_of_setNZ {s t : State} {b : Byte} (h : t.flags = s.flags.setNZ b) : DescribesNZ b s t := by
  rw [DescribesNZ, h]
  exact ⟨decide_eq_true_iff.trans BitVec.toNat_eq, decide_eq_true_iff, rfl, rfl⟩

/-- A tick whose body puts `b` in A and sets Z and N from it. -/
theorem exec_of_loadA {i : Instr} {s : State} {b : Byte} (h : exec i s = .next (s.advance.loadA b).countTick) :
    ∃ t, exec i s = .next t ∧ OnlyRegisters s t ∧ t.x = s.x ∧ t.y = s.y ∧ t.a = b ∧ DescribesNZ t.a s t :=
  ⟨_, h, ⟨rfl, fun _ => rfl⟩, rfl, rfl, rfl, describesNZ_of_setNZ rfl⟩

/-- Settles O5: each body is `loadA` of the combined byte. -/
theorem logicCombinesOperandIntoA : Obligations.LogicCombinesOperandIntoA := by
  refine fun s => ⟨?and, ?ora, ?eor⟩
  all_goals
    exact readForms_of_withOperand (fun _ => rfl) (fun _ => rfl) (fun _ => rfl) (fun _ => rfl) (fun _ => rfl)
      (fun _ => rfl) fun _ _ h => exec_of_loadA h

theorem Flags.afterBit_z_iff (f : Flags) (a m : Byte) : (f.afterBit a m).z = true ↔ a &&& m = 0 := decide_eq_true_iff

/-- Settles O6: the body of `bit` replaces the flags by `afterBit`, which takes N and V from the operand. -/
theorem bitTestsOperandOnly : Obligations.BitTestsOperandOnly := fun s =>
  varForms_of_withOperand (fun _ => rfl) (fun _ => rfl) (fun _ => rfl) (fun _ => rfl) fun _ _ m h =>
    ⟨(bitCore m s.advance).countTick, h, ⟨rfl, fun _ => rfl⟩, rfl, rfl, rfl, s.flags.afterBit_z_iff s.a m, rfl, rfl, rfl⟩

end Sys2Proof.Machine
end

section
/-! The forms of a rule that reads a place once and writes its result back there once (30_encoding.md R321, R324, R325;
42_shift_rotate.md R440), shown once for every such rule. -/
namespace Sys2Proof

open Machine

section
variable {s : State} {op : Byte → Flags → Byte × Flags}

/-! ### One instruction -/

theorem exec_of_modify_acc {i : Instr} (hi : exec i s = oneTick (modify .acc op) s) :
    ∃ t, exec i s = .next t ∧ OnlyRegisters s t ∧ t.x = s.x ∧ t.y = s.y ∧
      t.a = (op s.a s.flags).1 ∧ t.flags = (op s.a s.flags).2 :=
  ⟨_, hi.trans (oneTick_ok (modify_acc op s.advance)), ⟨rfl, fun _ => rfl⟩, rfl, rfl, rfl, rfl⟩

theorem exec_of_modify_var {i : Instr} {k : Key} (hi : exec i s = oneTick (modify (.var k) op) s)
    (hk : s.reserved k = false) :
    ∃ t, exec i s = .next t ∧ OnlySlot k (op (fold (s.vars.read k)) s.flags).1 s t ∧
      t.flags = (op (fold (s.vars.read k)) s.flags).2 :=
  ⟨_, hi.trans (oneTick_ok (modify_var op ((s.advance_reserved k).trans hk))),
    ⟨rfl, find?_write_same _ _ _, fun _ hj => find?_write_other _ _ hj⟩, rfl⟩

theorem faultsWith_of_modify_reserved {i : Instr} {k : Key} (hi : exec i s = oneTick (modify (.var k) op) s)
    (hk : s.reserved k = true) : FaultsWith i s .reservedKeyAccess (some k) :=
  hi.trans (oneTick_error (modify_reserved op ((s.advance_reserved k).trans hk)))

/-! ### The forms -/

variable {zp abs : Key → Instr} {zpTag absTag : Byte}

theorem varForms_of_modify
    (hzpEnc : ∀ k, encode (zp k) = ⟨zpTag, .key k⟩) (habsEnc : ∀ k, encode (abs k) = ⟨absTag, .key k⟩)
    (hzp : ∀ k, exec (zp k) s = oneTick (modify (.var k) op) s)
    (habs : ∀ k, exec (abs k) s = oneTick (modify (.var k) op) s) :
    VarForms s zp abs zpTag absTag fun i k m =>
      ∃ t, exec i s = .next t ∧ OnlySlot k (op m s.flags).1 s t ∧ t.flags = (op m s.flags).2 := by
  refine fun k => ⟨fun hwf => ?_, fun hk => ?_, fun hk => ?_⟩
  · exact ⟨decode_of_encode_key (hzpEnc k) hwf, decode_of_encode_key (habsEnc k) hwf⟩
  · exact ⟨exec_of_modify_var (hzp k) hk, exec_of_modify_var (habs k) hk⟩
  · exact ⟨faultsWith_of_modify_reserved (hzp k) hk, faultsWith_of_modify_reserved (habs k) hk⟩

theorem modifyForms_of_modify {acc : Instr} {accTag : Byte} {P : Byte → Byte → Flags → Prop}
    (haccDec : decode ⟨accTag, .none⟩ = .ok acc) (hzpEnc : ∀ k, encode (zp k) = ⟨zpTag, .key k⟩)
    (habsEnc : ∀ k, encode (abs k) = ⟨absTag, .key k⟩)
    (hacc : exec acc s = oneTick (modify .acc op) s)
    (hzp : ∀ k, exec (zp k) s = oneTick (modify (.var k) op) s)
    (habs : ∀ k, exec (abs k) s = oneTick (modify (.var k) op) s)
    (hP : ∀ m, P m (op m s.flags).1 (op m s.flags).2) : ModifyForms s acc zp abs accTag zpTag absTag P := by
  refine ⟨⟨haccDec, ?_⟩, (varForms_of_modify hzpEnc habsEnc hzp habs).imp ?_⟩
  · obtain ⟨t, hexec, hframe, hx, hy, ha, hflags⟩ := exec_of_modify_acc hacc
    exact ⟨t, hexec, hframe, hx, hy, ha ▸ hflags ▸ hP s.a⟩
  · rintro i k m ⟨t, hexec, hslot, hflags⟩
    exact ⟨t, _, hexec, hslot, hflags ▸ hP m⟩

end

end Sys2Proof
end

section
/-! The four shifts as arithmetic on the carry and the byte: `rol` doubles and `ror` halves the 9 bits, `asl` and `lsr` are
they with 0 entering (42_shift_rotate.md R440 to R444). -/
namespace Sys2Proof.Machine

/-! ### The result and the bit shifted out -/

theorem b2i_eq_one_iff (c : Bool) : b2i c = 1 ↔ c = true := by cases c <;> decide

theorem b2i_getLsbD (m : Byte) (j : Nat) : b2i (m.getLsbD j) = m.toNat / 2 ^ j % 2 := by
  rw [← BitVec.testBit_toNat, ← Nat.toNat_testBit]
  cases m.toNat.testBit j <;> rfl

/-- The old carry enters at bit 0, which doubling leaves free. -/
theorem rolOp_value (m : Byte) (c : Bool) :
    (rolOp m c).1.toNat + 256 * b2i (rolOp m c).2 = 2 * m.toNat + b2i c := by
  have hc := b2i_le_one c
  have hor : (m.toNat <<< 1) ||| b2i c = 2 * m.toNat + b2i c := by
    rw [← Nat.shiftLeft_add_eq_or_of_lt (by omega), Nat.shiftLeft_eq, pow_one, Nat.mul_comm]
  have hr : (rolOp m c).1.toNat = (2 * m.toNat + b2i c) % 256 := hor ▸ toNat_fold_natCast _
  have hout : b2i (rolOp m c).2 = m.toNat / 2 ^ 7 % 2 := b2i_getLsbD m 7
  omega

/-- The old carry enters at bit 7, which halving leaves free. -/
theorem rorOp_value (m : Byte) (c : Bool) :
    2 * (rorOp m c).1.toNat + b2i (rorOp m c).2 = m.toNat + 256 * b2i c := by
  have hc := b2i_le_one c
  have hor : (m.toNat >>> 1) ||| (b2i c <<< 7) = m.toNat / 2 + 128 * b2i c := by
    have hhalf : m.toNat >>> 1 = m.toNat / 2 := Nat.shiftRight_one _
    rw [Nat.or_comm, ← Nat.shiftLeft_add_eq_or_of_lt (by omega), Nat.shiftLeft_eq, hhalf]
    omega
  have hr : (rorOp m c).1.toNat = (m.toNat / 2 + 128 * b2i c) % 256 := hor ▸ toNat_fold_natCast _
  have hout : b2i (rorOp m c).2 = m.toNat / 2 ^ 0 % 2 := b2i_getLsbD m 0
  omega

theorem aslOp_eq_rolOp (m : Byte) (c : Bool) : aslOp m c = rolOp m false := by
  simp [aslOp, rolOp, b2i]

theorem lsrOp_eq_rorOp (m : Byte) (c : Bool) : lsrOp m c = rorOp m false := by
  simp [lsrOp, rorOp, b2i]

theorem aslOp_value (m : Byte) (c : Bool) : (aslOp m c).1.toNat + 256 * b2i (aslOp m c).2 = 2 * m.toNat :=
  aslOp_eq_rolOp m c ▸ rolOp_value m false

theorem lsrOp_value (m : Byte) (c : Bool) : 2 * (lsrOp m c).1.toNat + b2i (lsrOp m c).2 = m.toNat :=
  lsrOp_eq_rorOp m c ▸ rorOp_value m false

/-! ### Z and N -/

section
variable (op : Byte → Bool → Byte × Bool) (m : Byte) (f : Flags)

theorem shiftFrame_z_iff : (shiftFrame op m f).2.z = true ↔ (shiftFrame op m f).1.toNat = 0 :=
  decide_eq_true_iff.trans BitVec.toNat_eq

theorem shiftFrame_n_iff : (shiftFrame op m f).2.n = true ↔ 128 ≤ (shiftFrame op m f).1.toNat :=
  decide_eq_true_iff

end

/-- Bit 7 of what `ror` gives is the carry that entered (R444). -/
theorem rorOp_sign_iff (m : Byte) (c : Bool) : 128 ≤ (rorOp m c).1.toNat ↔ c = true := by
  have hvalue := rorOp_value m c
  have hin := b2i_le_one c
  have hout := b2i_le_one (rorOp m c).2
  rw [← b2i_eq_one_iff]
  omega

theorem shiftFrame_ror_n (m : Byte) (f : Flags) : (shiftFrame rorOp m f).2.n = f.c :=
  Bool.eq_iff_iff.mpr ((shiftFrame_n_iff rorOp m f).trans (rorOp_sign_iff m f.c))

/-- `lsr` is `ror` with 0 entering at bit 7 (R442). -/
theorem shiftFrame_lsr_n (m : Byte) (f : Flags) : (shiftFrame lsrOp m f).2.n = false := by
  have hsign : 128 ≤ (lsrOp m f.c).1.toNat ↔ false = true := lsrOp_eq_rorOp m f.c ▸ rorOp_sign_iff m false
  exact Bool.eq_iff_iff.mpr ((shiftFrame_n_iff lsrOp m f).trans hsign)

/-- Settles O7: every form is one modification by the shift's frame, and doubling or halving the 9 bits fixes the result and
the bit shifted out. -/
theorem shiftsMoveOneBitThroughCarry : Obligations.ShiftsMoveOneBitThroughCarry := by
  refine fun s => ⟨?asl, ?lsr, ?rol, ?ror⟩
  all_goals
    refine modifyForms_of_modify rfl (fun _ => rfl) (fun _ => rfl) rfl (fun _ => rfl) (fun _ => rfl) fun m => ?_
  case asl => exact ⟨aslOp_value m s.flags.c, shiftFrame_z_iff _ _ _, shiftFrame_n_iff _ _ _, rfl⟩
  case lsr => exact ⟨lsrOp_value m s.flags.c, shiftFrame_z_iff _ _ _, shiftFrame_lsr_n m s.flags, rfl⟩
  case rol => exact ⟨rolOp_value m s.flags.c, shiftFrame_z_iff _ _ _, shiftFrame_n_iff _ _ _, rfl⟩
  case ror => exact ⟨rorOp_value m s.flags.c, shiftFrame_z_iff _ _ _, shiftFrame_ror_n m s.flags, rfl⟩

end Sys2Proof.Machine
end

section
/-! `cmp`, `cpx` and `cpy` are one tick that replaces the flags by those of an unsigned comparison (43_compare.md R460 to
R463). -/
namespace Sys2Proof.Machine

/-- The difference of two bytes is above -256 and below 256, so it folds to 0 only where it is 0. -/
theorem fold_sub_eq_zero_iff (r m : Byte) : fold ((r.toNat : Int) - m.toNat) = 0 ↔ r = m := by
  have hfold := coe_toNat_fold ((r.toNat : Int) - m.toNat)
  have hzero : (0 : Byte).toNat = 0 := rfl
  rw [BitVec.toNat_eq, BitVec.toNat_eq, hzero]
  omega

/-! ### The flags of the compare core -/

theorem Flags.afterCompare_c_iff (f : Flags) (r m : Byte) : (f.afterCompare r m).c = true ↔ m.toNat ≤ r.toNat :=
  decide_eq_true_iff

theorem Flags.afterCompare_z_iff (f : Flags) (r m : Byte) : (f.afterCompare r m).z = true ↔ r = m :=
  decide_eq_true_iff.trans (fold_sub_eq_zero_iff r m)

theorem Flags.afterCompare_n_iff (f : Flags) (r m : Byte) :
    (f.afterCompare r m).n = true ↔ 128 ≤ ((r.toNat : Int) - m.toNat) % 256 := by
  have hn : (f.afterCompare r m).n = true ↔ 127 < (fold ((r.toNat : Int) - m.toNat)).toNat := decide_eq_true_iff
  rw [hn, ← coe_toNat_fold]
  omega

/-! ### The compares -/

/-- A tick whose body is the compare core on `r` and `m` (R460). -/
theorem exec_of_compareCore {i : Instr} {s : State} {r m : Byte}
    (h : exec i s = .next (compareCore r m s.advance).countTick) :
    ∃ t, exec i s = .next t ∧ OnlyRegisters s t ∧ t.a = s.a ∧ t.x = s.x ∧ t.y = s.y ∧
      (t.flags.c = true ↔ m.toNat ≤ r.toNat) ∧ (t.flags.z = true ↔ r = m) ∧
      (t.flags.n = true ↔ 128 ≤ ((r.toNat : Int) - m.toNat) % 256) ∧ t.flags.v = s.flags.v :=
  ⟨_, h, ⟨rfl, fun _ => rfl⟩, rfl, rfl, rfl, s.flags.afterCompare_c_iff r m, s.flags.afterCompare_z_iff r m,
    s.flags.afterCompare_n_iff r m, rfl⟩

/-- Settles O8: each body is the compare core on the mnemonic's own register, which the advance of `pc` left as it was. -/
theorem comparesOrderUnsignedBytes : Obligations.ComparesOrderUnsignedBytes := by
  refine fun s => ⟨?cmp, ?cpx, ?cpy⟩
  all_goals
    exact readForms_of_withOperand (fun _ => rfl) (fun _ => rfl) (fun _ => rfl) (fun _ => rfl) (fun _ => rfl)
      (fun _ => rfl) fun _ _ h => exec_of_compareCore h

end Sys2Proof.Machine
end

section
/-! `inc` and `dec` step a slot, `inx`, `iny`, `dex` and `dey` an index register; the step is one byte up or down, folded
(44_inc_dec.md R480 to R485). -/
namespace Sys2Proof.Machine

/-! ### One byte up, one byte down -/

theorem toNat_incByte (m : Byte) : (incByte m).toNat = (m.toNat + 1) % 256 := toNat_fold_natCast (m.toNat + 1)

theorem coe_toNat_decByte (m : Byte) : ((decByte m).toNat : Int) = ((m.toNat : Int) - 1) % 256 := coe_toNat_fold _

/-! ### Slots -/

/-- Both forms of a stepping rule: the slot of the key holds `f` of the byte read, and Z and N describe it. -/
theorem varForms_of_stepSlot {s : State} {f : Byte → Byte} {zp abs : Key → Instr} {zpTag absTag : Byte}
    (hzpEnc : ∀ k, encode (zp k) = ⟨zpTag, .key k⟩) (habsEnc : ∀ k, encode (abs k) = ⟨absTag, .key k⟩)
    (hzp : ∀ k, exec (zp k) s = oneTick (stepSlot k f) s) (habs : ∀ k, exec (abs k) s = oneTick (stepSlot k f) s) :
    VarForms s zp abs zpTag absTag fun i k m =>
      ∃ t, exec i s = .next t ∧ OnlySlot k (f m) s t ∧ DescribesNZ (f m) s t := by
  refine (varForms_of_modify hzpEnc habsEnc hzp habs).imp ?_
  rintro i k m ⟨t, hexec, hslot, hflags⟩
  exact ⟨t, hexec, hslot, describesNZ_of_setNZ hflags⟩

/-- Settles O9: both mnemonics step the slot of their key, by `incByte` and by `decByte`. -/
theorem incDecReplaceSlot : Obligations.IncDecReplaceSlot := by
  refine fun s => ⟨?inc, ?dec⟩
  all_goals
    refine (varForms_of_stepSlot (fun _ => rfl) (fun _ => rfl) (fun _ => rfl) (fun _ => rfl)).imp ?_
    rintro i k m ⟨t, hexec, hslot, hnz⟩
  case inc => exact ⟨t, _, hexec, hslot, toNat_incByte m, hnz⟩
  case dec => exact ⟨t, _, hexec, hslot, coe_toNat_decByte m, hnz⟩

/-! ### Index registers -/

/-- A tick whose body puts `b` in X and sets Z and N from it. -/
theorem exec_of_loadX {i : Instr} {s : State} {b : Byte} (h : exec i s = .next (s.advance.loadX b).countTick) :
    ∃ t, exec i s = .next t ∧ OnlyRegisters s t ∧ t.a = s.a ∧ t.y = s.y ∧ t.x = b ∧ DescribesNZ t.x s t :=
  ⟨_, h, ⟨rfl, fun _ => rfl⟩, rfl, rfl, rfl, describesNZ_of_setNZ rfl⟩

/-- A tick whose body puts `b` in Y and sets Z and N from it. -/
theorem exec_of_loadY {i : Instr} {s : State} {b : Byte} (h : exec i s = .next (s.advance.loadY b).countTick) :
    ∃ t, exec i s = .next t ∧ OnlyRegisters s t ∧ t.a = s.a ∧ t.x = s.x ∧ t.y = b ∧ DescribesNZ t.y s t :=
  ⟨_, h, ⟨rfl, fun _ => rfl⟩, rfl, rfl, rfl, describesNZ_of_setNZ rfl⟩

theorem exec_inx (s : State) : exec .inx s = .next (s.advance.loadX (incByte s.x)).countTick := rfl

theorem exec_iny (s : State) : exec .iny s = .next (s.advance.loadY (incByte s.y)).countTick := rfl

theorem exec_dex (s : State) : exec .dex s = .next (s.advance.loadX (decByte s.x)).countTick := rfl

theorem exec_dey (s : State) : exec .dey s = .next (s.advance.loadY (decByte s.y)).countTick := rfl

/-- Settles O10: each loads its own register with the stepped byte. -/
theorem incDecStepIndexRegister : Obligations.IncDecStepIndexRegister := by
  refine fun s => ⟨⟨rfl, ?inx⟩, ⟨rfl, ?iny⟩, ⟨rfl, ?dex⟩, ⟨rfl, ?dey⟩⟩
  case inx =>
    obtain ⟨t, hexec, hframe, ha, hy, hx, hnz⟩ := exec_of_loadX (exec_inx s)
    exact ⟨t, hexec, hframe, ha, hy, hx ▸ toNat_incByte s.x, hnz⟩
  case iny =>
    obtain ⟨t, hexec, hframe, ha, hx, hy, hnz⟩ := exec_of_loadY (exec_iny s)
    exact ⟨t, hexec, hframe, ha, hx, hy ▸ toNat_incByte s.y, hnz⟩
  case dex =>
    obtain ⟨t, hexec, hframe, ha, hy, hx, hnz⟩ := exec_of_loadX (exec_dex s)
    exact ⟨t, hexec, hframe, ha, hy, hx ▸ coe_toNat_decByte s.x, hnz⟩
  case dey =>
    obtain ⟨t, hexec, hframe, ha, hx, hy, hnz⟩ := exec_of_loadY (exec_dey s)
    exact ⟨t, hexec, hframe, ha, hx, hy ▸ coe_toNat_decByte s.y, hnz⟩

end Sys2Proof.Machine
end

section
/-! The branches, `jmp`, and `branch` with its selector: where the next record is, and what `branch` records
(45_control.md R500 to R509, R520). -/
namespace Sys2Proof.Machine

/-- A branch's whole tick: `pc` alone depends on the condition (R501). -/
theorem countTick_branchOn (s : State) (c : Cond) (target : Nat) : (branchOn c target s.advance).countTick =
    { s with pc := if c.holds s.flags then target else s.pc + 1, ticks := s.ticks + 1 } := by
  rw [branchOn, gotoIf_eq]
  rfl

/-- One of R501 to R508: a branch whose condition `c` holds exactly where `taken` does. -/
theorem relativeForm_of_branchOn {s : State} {mk : Nat → Instr} {tag : Byte} {c : Cond} {taken : Prop}
    (hdecode : ∀ target, decode ⟨tag, .index target⟩ = .ok (mk target))
    (hexec : ∀ target, exec (mk target) s = plainTick (branchOn c target) s) (hc : c.holds s.flags = true ↔ taken) :
    RelativeForm s mk tag fun target t =>
      (taken → t = { s with pc := target, ticks := s.ticks + 1 }) ∧
      (¬ taken → t = { s with pc := s.pc + 1, ticks := s.ticks + 1 }) := by
  refine fun target => ⟨hdecode target, _, hexec target, fun htaken => ?_, fun hnot => ?_⟩ <;> rw [countTick_branchOn]
  · rw [if_pos (hc.mpr htaken)]
  · rw [if_neg (hc.not.mpr hnot)]

/-- Settles O11: each condition of R500 is one flag or its complement. -/
theorem branchesFollowTheirFlag : Obligations.BranchesFollowTheirFlag := by
  refine fun s => ⟨?bcc, ?bcs, ?beq, ?bne, ?bmi, ?bpl, ?bvc, ?bvs⟩
  case bcs | beq | bmi | bvs => exact relativeForm_of_branchOn (fun _ => rfl) (fun _ => rfl) Iff.rfl
  case bcc | bne | bpl | bvc =>
    exact relativeForm_of_branchOn (fun _ => rfl) (fun _ => rfl) (iff_of_eq (Bool.not_eq_true' _))

/-- Settles O12: the body of `jmp` is `pc <- t`. -/
theorem jmpGoesToTarget : Obligations.JmpGoesToTarget :=
  fun _ _ => ⟨rfl, _, rfl, rfl⟩

/-- The tick of `branch` with the condition `c`: that of the conditional branch, and the record of the condition (R520). -/
theorem countTick_recordedBranch (s : State) (c : Cond) (target : Nat) :
    (recordedBranch c target s.advance).countTick =
      { s with
        pc := if c.holds s.flags then target else s.pc + 1
        btaken := .taken (c.holds s.flags)
        ticks := s.ticks + 1 } :=
  congrArg (fun t : State => { t with btaken := .taken (c.holds s.flags) }) (countTick_branchOn s c target)

theorem selectedBranch_invalid {s : State} (target : Nat) (h : s.bsel = .invalid) :
    selectedBranch target s = .error ⟨.invalidBranchSelector, none⟩ := by
  simp only [selectedBranch, h]

/-- A selector that is not invalid chooses its condition, and `bcc` where it is unset (R520). -/
theorem selectedBranch_ok {s : State} {c : Cond} (target : Nat)
    (h : s.bsel = .cond c ∨ (s.bsel = .unset ∧ c = .bcc)) :
    selectedBranch target s = .ok (recordedBranch c target s) := by
  rcases h with h | ⟨h, rfl⟩ <;> simp only [selectedBranch, h]

/-- Settles O17: an invalid selector raises before the body does anything; otherwise the selector's condition is branched
on and recorded. -/
theorem branchFollowsSelector : Obligations.BranchFollowsSelector := by
  refine fun s => ⟨fun _ => rfl, rfl, fun hinvalid target => ?_, fun c target hc => ?_⟩
  · exact oneTick_error (selectedBranch_invalid (s := s.advance) target hinvalid)
  · rw [← countTick_recordedBranch]
    exact oneTick_ok (selectedBranch_ok (s := s.advance) target hc)

end Sys2Proof.Machine
end

section
/-! Calls and returns: `jsr` pushes the index of the next record as two bytes, `rts` and `rti` return to the index that two
bytes make, or to N (45_control.md R510 to R513). -/
namespace Sys2Proof.Machine

/-! ### Popping and returning -/

section
variable {s : State} {rest : List Byte}

theorem State.top_of_stack {b : Byte} (h : s.stack = rest ++ [b]) : s.top = b := by
  simp [State.top, h]

theorem State.drop_of_stack {b : Byte} (h : s.stack = rest ++ [b]) : s.drop = { s with stack := rest } := by
  simp [State.drop, h]

theorem doReturn_of_depth_lt_two (h : s.stack.length < 2) : s.doReturn = { s with pc := s.program.length } := by
  rcases doReturn_cases s with ⟨-, hr⟩ | ⟨hdepth, -⟩
  · exact hr
  · exact absurd h hdepth.not_gt

/-- The low byte is on top, the high byte below it (R511). -/
theorem doReturn_of_stack {hi lo : Byte} (h : s.stack = rest ++ [hi, lo]) :
    s.doReturn = { s with stack := rest, pc := hi.toNat * 256 + lo.toNat } := by
  rcases doReturn_cases s with ⟨hdepth, -⟩ | ⟨-, hr⟩
  · simp only [State.depth, h, List.length_append, List.length_cons] at hdepth
    omega
  · have hlo : s.stack = (rest ++ [hi]) ++ [lo] := by simpa using h
    have hhi : s.drop.stack = rest ++ [hi] := by rw [State.drop_of_stack hlo]
    rw [hr, State.top_of_stack hlo, State.top_of_stack hhi, hlo, List.dropLast_concat, List.dropLast_concat]

@[simp] theorem doReturn_flags (s : State) : s.doReturn.flags = s.flags := by
  rcases doReturn_cases s with ⟨-, hr⟩ | ⟨-, hr⟩ <;> rw [hr]

/-- `rti` is the return of `rts` with the popped byte's flags, on the stack below it (R512). -/
theorem flagsThenReturn_of_stack {b : Byte} (h : s.stack = rest ++ [b]) :
    flagsThenReturn s = ({ s with flags := Flags.unpack b, stack := rest } : State).doReturn := by
  rw [flagsThenReturn, State.top_of_stack h, State.drop_of_stack h]

/-- An empty stack pops as 0, which unpacks to clear flags, and stays empty (10_state.md R115, R123). -/
theorem flagsThenReturn_of_nil (h : s.stack = []) :
    flagsThenReturn s = ({ s with flags := Flags.clear } : State).doReturn := by
  have hclear : Flags.unpack s.top = Flags.clear := by rw [State.top, h]; rfl
  have hdrop : s.drop = s := by rw [State.drop, h, List.dropLast_nil, ← h]
  rw [flagsThenReturn, hclear, hdrop]

end

/-- Settles O14: `rts` is one tick around the return. -/
theorem rtsPopsReturnIndex : Obligations.RtsPopsReturnIndex := by
  refine fun s => ⟨rfl, s.advance.doReturn.countTick, rfl, fun hshort => ?_, fun rest hi lo hstack => ?_⟩
  · rw [doReturn_of_depth_lt_two (s := s.advance) hshort]
    rfl
  · rw [doReturn_of_stack (s := s.advance) hstack]
    rfl

/-- Settles O15: the popped byte gives the flags, and the return finds the stack below it. -/
theorem rtiPopsFlagsThenReturns : Obligations.RtiPopsFlagsThenReturns := by
  refine fun s => ⟨rfl, (flagsThenReturn s.advance).countTick, rfl, fun hempty => ?_, fun rest b hstack => ?_⟩
  · have hshort : s.stack.length < 2 := by simp [hempty]
    rw [flagsThenReturn_of_nil (s := s.advance) hempty, doReturn_of_depth_lt_two (by exact hshort)]
    rfl
  · rw [flagsThenReturn_of_stack (s := s.advance) hstack]
    refine ⟨doReturn_flags _, fun hshort => ?_, fun below hi lo hrest => ?_⟩
    · rw [doReturn_of_depth_lt_two (by exact hshort)]
      rfl
    · rw [doReturn_of_stack (by exact hrest)]
      rfl

/-! ### Calling, and coming back -/

theorem toNat_highByte (n : Nat) : (BitVec.ofNat 8 ((n >>> 8) &&& 0xFF)).toNat = n / 256 % 256 := by
  rw [BitVec.toNat_ofNat, Nat.and_two_pow_sub_one_eq_mod _ 8, Nat.shiftRight_eq_div_pow, Nat.mod_mod]

theorem toNat_lowByte (n : Nat) : (BitVec.ofNat 8 (n &&& 0xFF)).toNat = n % 256 := by
  rw [BitVec.toNat_ofNat, Nat.and_two_pow_sub_one_eq_mod _ 8, Nat.mod_mod]

/-- Settles O13: the two pushed bytes are the two low digits, base 256, of the advanced pc. -/
theorem jsrPushesReturnIndex : Obligations.JsrPushesReturnIndex := by
  refine fun s target => ⟨rfl, (callTo target s.advance).countTick, rfl, _, _, toNat_highByte _, toNat_lowByte _, ?_⟩
  have hstack := pushReturn_stack s.advance
  simp only [State.advance_stack, State.advance_pc] at hstack
  rw [← hstack]
  rfl

/-- Settles O16: `rts` pops the two digits that `jsr` pushed, and an index of at most 65535 has no more (R513). -/
theorem rtsUndoesJsr : Obligations.RtsUndoesJsr := by
  intro s target hindex
  obtain ⟨-, u, hjsr, hi, lo, hhi, hlo, rfl⟩ := jsrPushesReturnIndex s target
  refine ⟨_, hjsr, rfl, ?_⟩
  obtain ⟨-, t, hrts, -, hpop⟩ := rtsPopsReturnIndex
    { s with stack := s.stack ++ [hi, lo], pc := target, ticks := s.ticks + 1 }
  have hback : hi.toNat * 256 + lo.toNat = s.pc + 1 := by omega
  rw [hrts, hpop s.stack hi lo rfl, hback]

end Sys2Proof.Machine
end

section
/-! Pushes, pulls and transfers, and the stack pointer emulation: what one pop gives, the packed byte's value and the
entries of a resized stack (46_stack_transfer.md R540 to R551). -/
namespace Sys2Proof.Machine

/-! ### Popping, packing and resizing -/

/-- `Pop()` on a stack that holds a byte and on an empty one, which pops as 0 and stays empty (10_state.md R122, R123). -/
theorem State.top_drop_of_pop {s : State} {rest : List Byte} {b : Byte}
    (h : s.stack = rest ++ [b] ∨ (s.stack = [] ∧ rest = [] ∧ b = 0)) :
    s.top = b ∧ s.drop = { s with stack := rest } := by
  rcases h with hstack | ⟨hempty, rfl, rfl⟩
  · exact ⟨State.top_of_stack hstack, State.drop_of_stack hstack⟩
  · constructor
    · rw [State.top, hempty]
      rfl
    · rw [State.drop, hempty, List.dropLast_nil]

/-- The four bits of the packed byte sum to at most 195, so the byte loses nothing (10_state.md R114). -/
theorem Flags.toNat_pack (f : Flags) :
    f.pack.toNat = 128 * b2i f.n + 64 * b2i f.v + 2 * b2i f.z + b2i f.c := by
  have hn := b2i_le_one f.n
  have hv := b2i_le_one f.v
  have hz := b2i_le_one f.z
  have hc := b2i_le_one f.c
  rw [Flags.pack, BitVec.toNat_ofNat]
  omega

/-- An entry of the resized stack is the old stack's where it had one, and padding where it had none (R551). -/
theorem resize_getElem? (st : List Byte) {m j : Nat} (hj : j < m) : (resize st m)[j]? = some (st[j]?.getD 0) := by
  unfold resize
  split
  case isTrue hm => rw [List.getElem?_take_of_lt hj, List.getElem?_eq_getElem (hj.trans hm), Option.getD_some]
  case isFalse =>
    rcases Nat.lt_or_ge j st.length with hkept | hpad
    · rw [List.getElem?_append_left hkept, List.getElem?_eq_getElem hkept, Option.getD_some]
    · rw [List.getElem?_append_right hpad, List.getElem?_replicate_of_lt (by omega), List.getElem?_eq_none hpad,
        Option.getD_none]

/-! ### Pushes and pulls -/

theorem exec_pla (s : State) : exec .pla s = .next (s.advance.drop.loadA s.advance.top).countTick := rfl

theorem exec_plp (s : State) :
    exec .plp s = .next ({ s.advance.drop with flags := Flags.unpack s.advance.top } : State).countTick := rfl

/-- Settles O18: `pha` is one push; `pla` loads A with the byte popped, on the stack below it. -/
theorem pushAndPullA : Obligations.PushAndPullA := by
  refine fun s => ⟨⟨rfl, _, rfl, rfl⟩, rfl, _, exec_pla s, fun rest b hpop => ?_⟩
  obtain ⟨htop, hdrop⟩ := State.top_drop_of_pop (s := s.advance) hpop
  rw [htop, hdrop]
  exact ⟨rfl, describesNZ_of_setNZ rfl⟩

/-- Settles O19: `php` pushes the packed byte; `plp` unpacks the byte popped, on the stack below it. -/
theorem pushAndPullFlags : Obligations.PushAndPullFlags := by
  refine fun s => ⟨⟨rfl, _, rfl, s.flags.pack, s.flags.toNat_pack, rfl⟩, rfl, _, exec_plp s, fun rest b hpop => ?_⟩
  obtain ⟨htop, hdrop⟩ := State.top_drop_of_pop (s := s.advance) hpop
  rw [htop, hdrop]
  rfl

/-! ### The stack pointer -/

/-- Settles O21: `tsx` loads X with the folded `255 - depth`; `txs` resizes the stack to X entries. -/
theorem stackPointerEmulation : Obligations.StackPointerEmulation := by
  refine fun s => ⟨⟨rfl, ?tsx⟩, rfl, _, exec_txs s, rfl, resize_length _ _, fun j hj => resize_getElem? s.stack hj⟩
  case tsx =>
    obtain ⟨t, hexec, hframe, ha, hy, hx, hnz⟩ := exec_of_loadX (exec_tsx s)
    exact ⟨t, hexec, hframe, ha, hy, hx ▸ coe_toNat_fold _, hnz⟩

/-! ### Transfers -/

theorem exec_tax (s : State) : exec .tax s = .next (s.advance.loadX s.a).countTick := rfl

theorem exec_tay (s : State) : exec .tay s = .next (s.advance.loadY s.a).countTick := rfl

theorem exec_txa (s : State) : exec .txa s = .next (s.advance.loadA s.x).countTick := rfl

theorem exec_tya (s : State) : exec .tya s = .next (s.advance.loadA s.y).countTick := rfl

/-- Settles O20: each loads its target register with the other's byte. -/
theorem transfersCopyRegister : Obligations.TransfersCopyRegister := by
  refine fun s => ⟨⟨rfl, ?tax⟩, ⟨rfl, ?tay⟩, ⟨rfl, ?txa⟩, ⟨rfl, ?tya⟩⟩
  case tax =>
    obtain ⟨t, hexec, hframe, ha, hy, hx, hnz⟩ := exec_of_loadX (exec_tax s)
    exact ⟨t, hexec, hframe, ha, hx, hy, hx ▸ hnz⟩
  case tay =>
    obtain ⟨t, hexec, hframe, ha, hx, hy, hnz⟩ := exec_of_loadY (exec_tay s)
    exact ⟨t, hexec, hframe, ha, hx, hy, hy ▸ hnz⟩
  case txa =>
    obtain ⟨t, hexec, hframe, hx, hy, ha, hnz⟩ := exec_of_loadA (exec_txa s)
    exact ⟨t, hexec, hframe, ha, hx, hy, ha ▸ hnz⟩
  case tya =>
    obtain ⟨t, hexec, hframe, hx, hy, ha, hnz⟩ := exec_of_loadA (exec_tya s)
    exact ⟨t, hexec, hframe, ha, hx, hy, ha ▸ hnz⟩

end Sys2Proof.Machine
end

section
/-! The flag instructions and the no-ops: each is one tick around a body that raises no fault (47_flags_nop.md R580 to
R587). -/
namespace Sys2Proof.Machine

/-- Settles O23: each body replaces one flag. -/
theorem flagInstructionsWriteOneFlag : Obligations.FlagInstructionsWriteOneFlag := by
  refine fun s => ⟨?clc, ?sec, ?clv⟩
  all_goals exact ⟨rfl, _, rfl, rfl⟩

/-- Settles O24: each body leaves the state as it is. -/
theorem noOpsOnlyAdvance : Obligations.NoOpsOnlyAdvance := by
  refine fun s => ⟨?cld, ?cli, ?sei, ?sed, ?nop⟩
  all_goals exact ⟨rfl, s.advance.countTick, rfl, rfl⟩

end Sys2Proof.Machine
end

section
/-! The loads put their operand in a register; the stores put a register in the slot of their key (48_load_store.md R600
to R605). -/
namespace Sys2Proof.Machine

/-! ### Loads -/

/-- Settles O25: each body is the load of the mnemonic's own register. -/
theorem loadsPutOperandInRegister : Obligations.LoadsPutOperandInRegister := by
  refine fun s => ⟨?lda, ?ldx, ?ldy⟩
  all_goals
    refine readForms_of_withOperand (fun _ => rfl) (fun _ => rfl) (fun _ => rfl) (fun _ => rfl) (fun _ => rfl)
      (fun _ => rfl) fun _ _ h => ?_
  case lda =>
    obtain ⟨t, hexec, hframe, hx, hy, ha, hnz⟩ := exec_of_loadA h
    exact ⟨t, hexec, hframe, ha, hx, hy, ha ▸ hnz⟩
  case ldx =>
    obtain ⟨t, hexec, hframe, ha, hy, hx, hnz⟩ := exec_of_loadX h
    exact ⟨t, hexec, hframe, ha, hx, hy, hx ▸ hnz⟩
  case ldy =>
    obtain ⟨t, hexec, hframe, ha, hx, hy, hnz⟩ := exec_of_loadY h
    exact ⟨t, hexec, hframe, ha, hx, hy, hy ▸ hnz⟩

/-! ### Stores -/

section
variable {i : Instr} {s : State} {k : Key} {reg : State → Byte}

theorem exec_of_storeOp_var (hi : exec i s = oneTick (fun u => u.storeOp (.var k) ((reg u).toNat : Int)) s)
    (hk : s.reserved k = false) :
    ∃ t, exec i s = .next t ∧ OnlySlot k (reg s.advance) s t ∧ t.flags = s.flags := by
  have hstore := storeOp_var ((reg s.advance).toNat : Int) ((s.advance_reserved k).trans hk)
  rw [fold_toNat] at hstore
  exact ⟨_, hi.trans (oneTick_ok hstore), ⟨rfl, find?_write_same _ _ _, fun _ hj => find?_write_other _ _ hj⟩, rfl⟩

theorem faultsWith_of_storeOp_reserved
    (hi : exec i s = oneTick (fun u => u.storeOp (.var k) ((reg u).toNat : Int)) s) (hk : s.reserved k = true) :
    FaultsWith i s .reservedKeyAccess (some k) :=
  hi.trans (oneTick_error (e := reservedKey k) (storeOp_reserved _ ((s.advance_reserved k).trans hk)))

end

/-- Both forms of a storing rule: the slot of the key holds the register's byte. -/
theorem varForms_of_storeOp {s : State} {reg : State → Byte} {zp abs : Key → Instr} {zpTag absTag : Byte}
    (hzpEnc : ∀ k, encode (zp k) = ⟨zpTag, .key k⟩) (habsEnc : ∀ k, encode (abs k) = ⟨absTag, .key k⟩)
    (hzp : ∀ k, exec (zp k) s = oneTick (fun u => u.storeOp (.var k) ((reg u).toNat : Int)) s)
    (habs : ∀ k, exec (abs k) s = oneTick (fun u => u.storeOp (.var k) ((reg u).toNat : Int)) s) :
    VarForms s zp abs zpTag absTag fun i k _ =>
      ∃ t, exec i s = .next t ∧ OnlySlot k (reg s.advance) s t ∧ t.flags = s.flags := by
  refine fun k => ⟨fun hwf => ?_, fun hk => ?_, fun hk => ?_⟩
  · exact ⟨decode_of_encode_key (hzpEnc k) hwf, decode_of_encode_key (habsEnc k) hwf⟩
  · exact ⟨exec_of_storeOp_var (hzp k) hk, exec_of_storeOp_var (habs k) hk⟩
  · exact ⟨faultsWith_of_storeOp_reserved (hzp k) hk, faultsWith_of_storeOp_reserved (habs k) hk⟩

/-- Settles O26: each stores the mnemonic's own register, which the advance of `pc` left as it was. -/
theorem storesPutRegisterInSlot : Obligations.StoresPutRegisterInSlot := by
  refine fun s => ⟨?sta, ?stx, ?sty⟩
  case sta => exact varForms_of_storeOp (reg := State.a) (fun _ => rfl) (fun _ => rfl) (fun _ => rfl) (fun _ => rfl)
  case stx => exact varForms_of_storeOp (reg := State.x) (fun _ => rfl) (fun _ => rfl) (fun _ => rfl) (fun _ => rfl)
  case sty => exact varForms_of_storeOp (reg := State.y) (fun _ => rfl) (fun _ => rfl) (fun _ => rfl) (fun _ => rfl)

end Sys2Proof.Machine
end

section
/-! What a step answers, one equation for each thing the run loop can find (70_reset_and_hazards.md R808, R810, R811,
R815; 60_exceptions.md R702, R712, R716). -/
namespace Sys2Proof.Machine

theorem step_of_ended {s : State} (hs : s.status ≠ .ready) : step s = .fault .runEnded := by
  rcases fetch_cases s with ⟨-, hf⟩ | ⟨hready, -⟩ | ⟨hready, -⟩ | ⟨r, hready, -⟩
  · simp only [step, hf]
  all_goals exact absurd hready hs

section
variable {s : State} (hs : s.status = .ready)
include hs

theorem step_of_pc_outside (hp : s.program.length ≤ s.pc) : step s = .next { s with status := .completed } := by
  simp [step, State.fetch, hs, hp]

theorem step_of_budget_used (hp : s.pc < s.program.length) (hb : s.budget ≤ s.ticks) :
    step s = .next { s with status := .incomplete } := by
  simp [step, State.fetch, hs, hp, hb.not_gt]

section
variable {r : Record} (hr : s.program[s.pc]? = some r) (hb : s.ticks < s.budget)
include hr hb

theorem step_of_decode_ok {i : Instr} (hd : decode r.raw = .ok i) : step s = exec i s := by
  simp only [step, State.fetch, hs, hr, if_pos hb, hd]

theorem step_of_decode_error {e : DecodeError} (hd : decode r.raw = .error e) :
    step s = .next (s.takeFault ⟨.illegalInstruction, none⟩) := by
  simp only [step, State.fetch, hs, hr, if_pos hb, hd]

end

end

/-- Settles O46: the two ends of the loop. -/
theorem loopEndSetsStatus : Obligations.LoopEndSetsStatus :=
  fun _ hs => ⟨step_of_pc_outside hs, step_of_budget_used hs⟩

/-- Settles O45: the record decodes to the instruction it encodes. -/
theorem stepRunsDecodedInstruction : Obligations.StepRunsDecodedInstruction :=
  fun _ _ _ hs hr hb hwf hraw => step_of_decode_ok hs hr hb (hraw ▸ decode_encode hwf)

end Sys2Proof.Machine
end

section
/-! Faults: which instruction raises which, what taking one records, and that a tick is counted exactly where none is
taken (60_exceptions.md R701, R703, R710 to R712; 70_reset_and_hazards.md R809). -/
namespace Sys2Proof.Machine

/-! ### Reserved keys -/

theorem State.reserved_iff (s : State) (k : Key) :
    s.reserved k = true ↔ s.cfg.branchTypeKey = some k ∨ s.cfg.branchTakenKey = some k := by
  rw [State.reserved, Bool.or_eq_true, beq_iff_eq, beq_iff_eq]

/-- An instruction with a key either reads it, modifies its slot, or stores to it. -/
theorem faultsWith_of_operand_reserved {i : Instr} {s : State} {k : Key} (ho : i.operand = .key k)
    (hk : s.reserved k = true) : FaultsWith i s .reservedKeyAccess (some k) := by
  cases i <;> cases ho
  case aslZp | aslAbs | lsrZp | lsrAbs | rolZp | rolAbs | rorZp | rorAbs | incZp | incAbs | decZp | decAbs =>
    exact faultsWith_of_modify_reserved rfl hk
  case staZp | staAbs => exact faultsWith_of_storeOp_reserved (reg := State.a) rfl hk
  case stxZp | stxAbs => exact faultsWith_of_storeOp_reserved (reg := State.x) rfl hk
  case styZp | styAbs => exact faultsWith_of_storeOp_reserved (reg := State.y) rfl hk
  all_goals exact faultsWith_of_reserved rfl hk

/-- Settles O35: by what each instruction does with its key; a parameter left unset equals no key. -/
theorem reservedKeyAlwaysFaults : Obligations.ReservedKeyAlwaysFaults := by
  refine ⟨fun i k s ho hbound => ?_, fun s k htype htaken => ?_⟩
  · exact faultsWith_of_operand_reserved ho ((s.reserved_iff k).mpr hbound)
  · rw [← Bool.not_eq_true, s.reserved_iff, htype, htaken]
    simp

/-! ### Where a fault comes from -/

/-- An instruction executed in a Ready state that leaves a Faulted one raised the fault. -/
theorem exec_faulted {i : Instr} {s t : State} {kind : FaultKind} {info : FaultInfo} (hs : s.status = .ready)
    (h : exec i s = .next t) (ht : t.status = .faulted kind info) : ∃ e, MayRaise i s e ∧ t = s.takeFault e := by
  rcases exec_cases h with ⟨u, hc, rfl⟩ | hraised
  · cases (hc.status.trans hs).symm.trans ht
  · exact hraised

/-- A step that leaves a Faulted state found a record at `pc` and took, in the state before it, the fault that the
instruction of the record raised, or `IllegalInstruction` for a record that is no instruction. -/
theorem step_faulted {s t : State} {kind : FaultKind} {info : FaultInfo} (h : step s = .next t)
    (ht : t.status = .faulted kind info) :
    ∃ r e, s.program[s.pc]? = some r ∧ t = s.takeFault e ∧
      ((∃ i, decode r.raw = .ok i ∧ MayRaise i s e) ∨ ∃ d, decode r.raw = .error d) := by
  obtain ⟨hs, ⟨-, rfl⟩ | ⟨-, -, rfl⟩ | ⟨r, hr, -, ⟨i, hd, hexec⟩ | ⟨d, hd, rfl⟩⟩⟩ := step_cases h
  · cases ht
  · cases ht
  · obtain ⟨e, hraise, rfl⟩ := exec_faulted hs hexec ht
    exact ⟨r, e, hr, rfl, .inl ⟨i, hd, hraise⟩⟩
  · exact ⟨r, _, hr, rfl, .inr ⟨d, hd⟩⟩

/-- In a well-formed Program every record is an instruction, so the fault is the instruction's. -/
theorem step_faulted_of_wellFormedProgram {s t : State} {kind : FaultKind} {info : FaultInfo}
    (hwf : wellFormedProgram s.program = true) (h : step s = .next t) (ht : t.status = .faulted kind info) :
    ∃ r ∈ s.program, ∃ i e, decode r.raw = .ok i ∧ MayRaise i s e ∧ t = s.takeFault e := by
  obtain ⟨r, e, hr, rfl, hraised⟩ := step_faulted h ht
  have hmem := List.mem_of_getElem? hr
  obtain ⟨i, hi, -⟩ := decode_of_wellFormedProgram hwf hmem
  rcases hraised with ⟨j, hj, hraise⟩ | ⟨d, hd⟩
  · exact ⟨r, hmem, j, e, hj, hraise, rfl⟩
  · cases hi.symm.trans hd

/-- Settles O36: the selector is tested before anything is changed, and no other instruction raises this kind. -/
theorem invalidSelectorFaultsBranchOnly : Obligations.InvalidSelectorFaultsBranchOnly := by
  refine ⟨fun s target hinvalid => ?_, fun i s t info hs h ht => ?_⟩
  · exact oneTick_error (selectedBranch_invalid (s := s.advance) target hinvalid)
  · obtain ⟨e, ⟨k, -, -, rfl⟩ | ⟨hbranch, hinvalid, -⟩, rfl⟩ := exec_faulted hs h ht
    · cases ht
    · exact ⟨hinvalid, hbranch⟩

/-! ### What a fault records -/

theorem State.lineAtPc_of_getElem? {s : State} {r : Record} (hr : s.program[s.pc]? = some r) : s.lineAtPc = r.line := by
  simp only [State.lineAtPc, hr]

theorem decode_error_of_no_encoding {w : RawInstr} (h : ∀ i : Instr, i.wf = true → encode i ≠ w) :
    ∃ d, decode w = .error d := by
  cases hd : decode w with
  | error d => exact ⟨d, rfl⟩
  | ok i =>
    obtain ⟨hencode, hwf⟩ := encode_of_decode hd
    exact absurd hencode (h i hwf)

/-- Settles O37: such a record does not decode; the records of a well-formed Program do, and an instruction never raises
this kind. -/
theorem illegalRecordFaultsUnexecuted : Obligations.IllegalRecordFaultsUnexecuted := by
  refine ⟨fun s r hs hr hb hno => ?_, fun s t info hwf h ht => ?_⟩
  · obtain ⟨d, hd⟩ := decode_error_of_no_encoding hno
    rw [step_of_decode_error hs hr hb hd, State.takeFault, State.lineAtPc_of_getElem? hr]
  · obtain ⟨r, -, i, e, -, hraise, rfl⟩ := step_faulted_of_wellFormedProgram hwf h ht
    exact hraise.kind_ne (Status.faulted.inj ht).1

/-- Settles O38: every fault is taken in the state before the step. -/
theorem faultsArePrecise : Obligations.FaultsArePrecise := by
  intro s t kind info h ht
  obtain ⟨r, e, hr, rfl, -⟩ := step_faulted h ht
  obtain ⟨rfl, rfl⟩ := Status.faulted.inj ht
  exact ⟨rfl, rfl, r, hr, State.lineAtPc_of_getElem? hr⟩

/-- Settles O34: a completed instruction is counted, and a fault is taken in the state before the tick. -/
theorem instructionTakesOneTick : Obligations.InstructionTakesOneTick := by
  intro i s t h
  rcases exec_cases h with ⟨u, hc, rfl⟩ | ⟨e, -, rfl⟩
  · exact .inl ⟨congrArg (· + 1) hc.ticks, hc.status⟩
  · exact .inr ⟨rfl, _, _, rfl⟩

end Sys2Proof.Machine
end

section
/-! The host's operations around a run: what NewRun makes, and when SeedVar, SetBranchSelector and Run answer what
(70_reset_and_hazards.md R800 to R807, R815). -/
namespace Sys2Proof.Machine

/-! ### NewRun -/

/-- Settles O41: the fields are those of the reset state, and an empty Program has no index in range. -/
theorem newRunHasResetValues : Obligations.NewRunHasResetValues := by
  refine fun cfg p => ⟨rfl, rfl, rfl, rfl, rfl, rfl, rfl, rfl, fun _ => rfl, rfl, rfl, rfl, rfl, fun hp => ?_⟩
  exact ⟨_, step_of_pc_outside (s := newRun cfg p) rfl (by rw [hp]; exact Nat.le_refl 0), rfl⟩

theorem inv_newRun (cfg : Config) {p : Program} (hp : wellFormedProgram p = true) : Inv (newRun cfg p) where
  varsCanonical := rfl
  varsKeys := nofun
  programAdmitted := hp
  pcInRange := Nat.zero_le _
  ticksInBudget := Nat.zero_le _
  depthBounded := Nat.zero_le _
  completedOutside := nofun
  incompleteInside := nofun
  faultedAt := nofun
  branchPresent := fun h => absurd rfl h

/-- Settles O42: the reset state is what NewRun makes of the empty Program. -/
theorem freshInstanceMeetsInv : Obligations.FreshInstanceMeetsInv :=
  ⟨fun cfg _ => inv_newRun cfg, inv_newRun Config.unset (p := []) rfl⟩

/-! ### When an operation is refused -/

theorem State.fresh_iff (s : State) : s.fresh = true ↔ s.status = .ready ∧ s.ticks = 0 := decide_eq_true_iff

theorem seedVar_eq_ok_iff {k : Key} {v : Int} {s t : State} : seedVar k v s = .ok t ↔
    s.fresh = true ∧ k.wf = true ∧ s.reserved k = false ∧ { s with vars := s.vars.write k v } = t := by
  unfold seedVar
  cases s.fresh <;> cases k.wf <;> cases s.reserved k <;> simp

theorem seedVar_of_refused_key {k : Key} (v : Int) {s : State} (hs : s.fresh = true)
    (hk : k.wf = false ∨ s.reserved k = true) : seedVar k v s = .error .keyRefused := by
  rcases hk with hk | hk <;> simp [seedVar, hs, hk]

theorem setBranchSelector_of_fresh (name : List Char) {s : State} (hs : s.fresh = true) :
    setBranchSelector name s = .ok { s with bsel := selectorOf name } := if_pos hs

theorem setBranchSelector_eq_ok_iff {name : List Char} {s t : State} : setBranchSelector name s = .ok t ↔
    s.fresh = true ∧ { s with bsel := selectorOf name } = t := by
  unfold setBranchSelector
  cases s.fresh <;> simp

theorem runInstance_eq_ok_iff {budget : Nat} {s t : State} : runInstance budget s = .ok t ↔
    s.status = .ready ∧ runLoop (budget - s.ticks) { s with budget := budget } = t := by
  unfold runInstance
  split <;> simp [*]

/-- Settles O39: the fetch and the three operations ask for a Ready state before they do anything. -/
theorem endedRunExecutesNothing : Obligations.EndedRunExecutesNothing := by
  intro s hs
  have hfresh : ¬ s.fresh = true := fun h => hs (s.fresh_iff.mp h).1
  exact ⟨step_of_ended hs, fun _ => if_neg hs, fun _ _ => if_neg hfresh, fun _ => if_neg hfresh⟩

/-! ### SeedVar and SetBranchSelector -/

/-- Settles O49: seeding is one write to the store. -/
theorem seedVarSetsOneSlot : Obligations.SeedVarSetsOneSlot := by
  intro s k v hs hticks
  have hfresh := s.fresh_iff.mpr ⟨hs, hticks⟩
  refine ⟨fun hwf hk => ?_, seedVar_of_refused_key v hfresh⟩
  exact ⟨_, seedVar_eq_ok_iff.mpr ⟨hfresh, hwf, hk, rfl⟩, rfl, find?_write_same _ _ _,
    fun _ hj => find?_write_other _ _ hj⟩

theorem selectorOf_of_mem : ∀ e ∈ condNames, selectorOf e.1.toList = .cond e.2 := by
  decide

theorem selectorOf_of_not_mem {text : List Char} (h : text ∉ (condNames.map Prod.fst).map String.toList) :
    selectorOf text = .invalid := by
  have hnone : condNames.find? (fun e => e.1.toList == text) = none := by
    rw [List.find?_eq_none]
    intro e he heq
    exact h (List.mem_map.mpr ⟨e.1, List.mem_map_of_mem he, beq_iff_eq.mp heq⟩)
  rw [selectorOf, hnone]

/-- Settles O50: the selector is looked up in the table of the eight names. -/
theorem setBranchSelectorNamesCondition : Obligations.SetBranchSelectorNamesCondition := by
  intro s hs hticks
  have hfresh := s.fresh_iff.mpr ⟨hs, hticks⟩
  refine ⟨fun e he => ?_, fun text htext => ?_⟩ <;> rw [setBranchSelector_of_fresh _ hfresh]
  · rw [selectorOf_of_mem e he]
  · rw [selectorOf_of_not_mem htext]

end Sys2Proof.Machine
end

section
/-! Run is the step iterated, so what every step keeps a run keeps: the invariant, the bounds of the budget, and, for a
valid Program, that no fault was taken (70_reset_and_hazards.md R807 to R811, R822; 60_exceptions.md R700, R721). -/
namespace Sys2Proof.Machine

/-! ### Iterating the step -/

theorem core_run_succ_of_step {s u : State} (h : step s = .next u) (k : Nat) :
    Host.Core.run core (k + 1) s = Host.Core.run core k u := by
  have hcore : core.step s = .next u := h
  simp only [Host.Core.run, hcore]

theorem core_run_succ_cases {k : Nat} {s t : State} (h : Host.Core.run core (k + 1) s = .next t) :
    ∃ u, step s = .next u ∧ Host.Core.run core k u = .next t := by
  simp only [Host.Core.run] at h
  split at h
  · next u hu => exact ⟨u, hu, h⟩
  · cases h
  · cases h

/-- What every step keeps, every number of steps keeps. -/
theorem core_run_keeps {P : State → Prop} (hstep : ∀ s t, P s → step s = .next t → P t) {k : Nat} {s t : State}
    (hs : P s) (h : Host.Core.run core k s = .next t) : P t := by
  induction k generalizing s with
  | zero => cases h; exact hs
  | succ k ih =>
    obtain ⟨u, hu, hrun⟩ := core_run_succ_cases h
    exact ih (hstep s u hs hu) hrun

/-! ### The loop's body and its end are steps -/

theorem step_eq_endOfRun {s : State} (hs : s.status = .ready) (h : ¬ (s.pc < s.programSize ∧ s.ticks < s.budget)) :
    step s = .next (endOfRun s) := by
  unfold endOfRun
  by_cases hp : s.pc < s.programSize
  · rw [if_pos hp]
    exact step_of_budget_used hs hp (Nat.le_of_not_lt fun hb => h ⟨hp, hb⟩)
  · rw [if_neg hp]
    exact step_of_pc_outside hs (Nat.le_of_not_lt hp)

theorem step_eq_tickOf {s : State} (hs : s.status = .ready) (hp : s.pc < s.programSize) (hb : s.ticks < s.budget) :
    step s = .next (tickOf s) := by
  have hr : s.program[s.pc]? = some s.program[s.pc] := List.getElem?_eq_getElem hp
  cases hd : decode s.program[s.pc].raw with
  | error d =>
    rw [step_of_decode_error hs hr hb hd]
    simp only [tickOf, hr, hd]
  | ok i =>
    obtain ⟨t, ht⟩ := exec_answers i s
    rw [step_of_decode_ok hs hr hb hd, ht]
    simp only [tickOf, hr, hd, ht]

/-- A step after which the run goes on counts one tick. -/
theorem ticks_of_step_ready {s t : State} (h : step s = .next t) (ht : t.status = .ready) : t.ticks = s.ticks + 1 := by
  obtain ⟨-, ⟨-, rfl⟩ | ⟨-, -, rfl⟩ | ⟨r, -, -, ⟨i, -, hexec⟩ | ⟨d, -, rfl⟩⟩⟩ := step_cases h
  case inr.inr.inl =>
    rcases instructionTakesOneTick i s t hexec with ⟨hticks, -⟩ | ⟨-, kind, info, hfault⟩
    · exact hticks
    · cases ht.symm.trans hfault
  all_goals cases ht

/-- The loop, with the fuel that the budget leaves, is that many steps at most and the one that leaves it. -/
theorem runLoop_eq_core_run {fuel : Nat} {s : State} (hs : s.status = .ready) (hfuel : s.budget - s.ticks = fuel) :
    ∃ k ≤ fuel + 1, Host.Core.run core k s = .next (runLoop fuel s) := by
  induction fuel generalizing s with
  | zero =>
    have hend := step_eq_endOfRun hs fun hguard => by omega
    exact ⟨1, Nat.le_refl 1, core_run_succ_of_step hend 0⟩
  | succ fuel ih =>
    unfold runLoop
    split
    case isFalse hguard => exact ⟨1, by omega, core_run_succ_of_step (step_eq_endOfRun hs hguard) 0⟩
    case isTrue hguard =>
      have hstep := step_eq_tickOf hs hguard.1 hguard.2
      split
      case isFalse => exact ⟨1, by omega, core_run_succ_of_step hstep 0⟩
      case isTrue hready =>
        have hticks := ticks_of_step_ready hstep hready
        obtain ⟨-, -, hbudget, -⟩ := stepKeepsProgramAndParameters _ _ hstep
        obtain ⟨k, hk, hrun⟩ := ih hready (by omega)
        exact ⟨k + 1, by omega, (core_run_succ_of_step hstep k).trans hrun⟩

/-- Settles O48: by the loop's equation with its steps, from the state with the budget of Run. -/
theorem runIsIteratedStep : Obligations.RunIsIteratedStep := by
  intro s t budget h
  obtain ⟨hs, rfl⟩ := runInstance_eq_ok_iff.mp h
  exact runLoop_eq_core_run hs rfl

/-- What every step keeps, a run keeps. -/
theorem runInstance_keeps {P : State → Prop} (hstep : ∀ s t, P s → step s = .next t → P t) {budget : Nat} {s t : State}
    (hs : P { s with budget := budget }) (h : runInstance budget s = .ok t) : P t := by
  obtain ⟨k, -, hrun⟩ := runIsIteratedStep s t budget h
  exact core_run_keeps hstep hs hrun

/-! ### The invariant -/

theorem inv_write {s : State} {k : Key} (v : Int) (hi : Inv s) (hwf : k.wf = true) (hk : s.reserved k = false) :
    Inv { s with vars := s.vars.write k v } :=
  { hi with
    varsCanonical := wf_write k v hi.varsCanonical
    varsKeys := fun e he => by
      rcases mem_write he with rfl | he
      · exact ⟨hwf, hk⟩
      · exact hi.varsKeys e he }

theorem inv_budget {s : State} {budget : Nat} (hi : Inv s) (hs : s.status = .ready) (hb : s.ticks ≤ budget) :
    Inv { s with budget := budget } :=
  { hi with
    ticksInBudget := hb
    incompleteInside := fun h => nomatch hs.symm.trans h
    faultedAt := fun _ _ h => nomatch hs.symm.trans h }

/-- Settles O44: seeding is a write of an admitted key, no clause speaks of the selector, and every step keeps the
invariant. -/
theorem hostOperationsKeepInv : Obligations.HostOperationsKeepInv := by
  refine ⟨fun s t k v hi h => ?_, fun s t name hi h => ?_, fun s t budget hi hb h => ?_⟩
  · obtain ⟨-, hwf, hk, rfl⟩ := seedVar_eq_ok_iff.mp h
    exact inv_write v hi hwf hk
  · obtain ⟨-, rfl⟩ := setBranchSelector_eq_ok_iff.mp h
    exact { hi with }
  · exact runInstance_keeps stepKeepsInv (inv_budget hi (runInstance_eq_ok_iff.mp h).1 hb) h

/-! ### The bounds of the budget -/

theorem endOfRun_status_ne_ready (s : State) : (endOfRun s).status ≠ .ready := by
  unfold endOfRun
  split <;> nofun

theorem runLoop_status_ne_ready (fuel : Nat) (s : State) : (runLoop fuel s).status ≠ .ready := by
  induction fuel generalizing s with
  | zero => exact endOfRun_status_ne_ready s
  | succ fuel ih =>
    unfold runLoop
    split
    case isFalse => exact endOfRun_status_ne_ready s
    case isTrue =>
      split
      case isTrue => exact ih (tickOf s)
      case isFalse hended => exact hended

/-- What a run from the tick `first` with a budget of `last` keeps, for Programs that are not well-formed too. -/
structure RunBounds (first last : Nat) (t : State) : Prop where
  budget : t.budget = last
  ticksFrom : first ≤ t.ticks
  ticksTo : t.ticks ≤ last
  incompleteInside : t.status = .incomplete → t.ticks = last ∧ t.pc < t.program.length
  completedOutside : t.status = .completed → t.program.length ≤ t.pc

/-- While the run goes on and where it faults, the bounds say nothing of `pc`. -/
theorem RunBounds.ofReadyOrFaulted {first last : Nat} {t : State} (hbudget : t.budget = last) (hfrom : first ≤ t.ticks)
    (hto : t.ticks ≤ last) (ht : t.status = .ready ∨ ∃ kind info, t.status = .faulted kind info) :
    RunBounds first last t := by
  refine ⟨hbudget, hfrom, hto, fun h => ?_, fun h => ?_⟩ <;> rcases ht with hs | ⟨kind, info, hs⟩ <;>
    cases hs.symm.trans h

theorem runBounds_exec {first last : Nat} {i : Instr} {s t : State} (hi : RunBounds first last s)
    (hs : s.status = .ready) (hb : s.ticks < s.budget) (h : exec i s = .next t) : RunBounds first last t := by
  obtain ⟨-, -, hbudget, -⟩ := exec_keepsProgramAndParameters h
  have := hi.budget; have := hi.ticksFrom
  rcases instructionTakesOneTick i s t h with ⟨hticks, hstatus⟩ | ⟨hticks, hfault⟩
  · exact .ofReadyOrFaulted (by omega) (by omega) (by omega) (.inl (hstatus.trans hs))
  · exact .ofReadyOrFaulted (by omega) (by omega) (by omega) (.inr hfault)

theorem runBounds_step {first last : Nat} (s t : State) (hi : RunBounds first last s) (h : step s = .next t) :
    RunBounds first last t := by
  obtain ⟨hs, ⟨hp, rfl⟩ | ⟨hp, hb, rfl⟩ | ⟨r, -, hb, ⟨i, -, hexec⟩ | ⟨d, -, rfl⟩⟩⟩ := step_cases h
  · exact { hi with incompleteInside := nofun, completedOutside := fun _ => hp }
  · have hused : s.ticks = last := Nat.le_antisymm hi.ticksTo (hi.budget ▸ hb)
    exact { hi with incompleteInside := fun _ => ⟨hused, hp⟩, completedOutside := nofun }
  · exact runBounds_exec hi hs hb hexec
  · exact { hi with incompleteInside := nofun, completedOutside := nofun }

/-- Settles O47: the loop never answers a Ready state, and every step keeps the bounds. -/
theorem runReachesAnEnd : Obligations.RunReachesAnEnd := by
  intro s budget hs hb
  have hrun := runInstance_eq_ok_iff (budget := budget).mpr ⟨hs, rfl⟩
  have hstart : RunBounds s.ticks budget { s with budget := budget } :=
    .ofReadyOrFaulted rfl (Nat.le_refl _) hb (.inl hs)
  have hend := runInstance_keeps runBounds_step hstart hrun
  exact ⟨_, hrun, runLoop_status_ne_ready _ _, hend.ticksFrom, hend.ticksTo, hend.incompleteInside,
    hend.completedOutside⟩

/-! ### A valid Program -/

/-- The run of a valid Program (R700): well-formed, addressing neither reserved variable, with a selector that is not
invalid, and not faulted so far. -/
structure ValidRun (s : State) : Prop where
  program : wellFormedProgram s.program = true
  keys : ∀ r ∈ s.program, ∀ k, r.raw.operand = .key k → s.reserved k = false
  bsel : s.bsel ≠ .invalid
  notFaulted : ∀ kind info, s.status ≠ .faulted kind info

theorem operand_of_decode {w : RawInstr} {i : Instr} (h : decode w = .ok i) : i.operand = w.operand :=
  congrArg RawInstr.operand (encode_of_decode h).1

theorem ValidRun.not_mayRaise {s : State} (hv : ValidRun s) {r : Record} (hr : r ∈ s.program) {i : Instr}
    (hd : decode r.raw = .ok i) (e : Raised) : ¬ MayRaise i s e := by
  rintro (⟨k, ho, hk, -⟩ | ⟨-, hinvalid, -⟩)
  · exact ne_true_of_eq_false (hv.keys r hr k ((operand_of_decode hd).symm.trans ho)) hk
  · exact hv.bsel hinvalid

theorem validRun_step (s t : State) (hv : ValidRun s) (h : step s = .next t) : ValidRun t := by
  obtain ⟨hprogram, hbsel, -, hcfg⟩ := stepKeepsProgramAndParameters s t h
  refine ⟨hprogram ▸ hv.program, ?_, hbsel ▸ hv.bsel, fun kind info ht => ?_⟩
  · intro r hr k ho
    rw [State.reserved_congr hcfg]
    exact hv.keys r (hprogram ▸ hr) k ho
  · obtain ⟨r, hr, i, e, hd, hraise, -⟩ := step_faulted_of_wellFormedProgram hv.program h ht
    exact hv.not_mayRaise hr hd e hraise

/-- Settles O40: no step of a valid run faults, and a run ends. -/
theorem validRunNeverFaults : Obligations.ValidRunNeverFaults := by
  intro s t budget hs hwf hkeys hbsel h
  have hstart : ValidRun { s with budget := budget } :=
    ⟨hwf, hkeys, hbsel, fun _ _ hfault => nomatch hs.symm.trans hfault⟩
  have hend := runInstance_keeps validRun_step hstart h
  obtain ⟨-, rfl⟩ := runInstance_eq_ok_iff.mp h
  cases hstatus : (runLoop (budget - s.ticks) { s with budget := budget }).status with
  | ready => exact absurd hstatus (runLoop_status_ne_ready _ _)
  | completed => exact .inl rfl
  | incomplete => exact .inr rfl
  | faulted kind info => exact absurd hstatus (hend.notFaulted kind info)

end Sys2Proof.Machine
end
